-- ==== Sys2Proof/Word.lean ====
section
/-! DEFINITION. The words of the machine and the plainest containers it is built from: byte, lane and scalar words,
a 32-lane vector built lane by lane, and the sparse table (entries in rising key order) that holds what the part has
many of. -/
namespace Sys2Proof

/-- One byte. -/
abbrev Byte := BitVec 8
/-- One lane of a vector register (R78), and one mask (R165). -/
abbrev Word32 := BitVec 32
/-- One scalar register (R127). -/
abbrev Word64 := BitVec 64
/-- A vector built entry by entry, in a form the kernel evaluates. -/
def tab {α : Type} (n : Nat) (f : Nat → α) : Vector α n :=
  ⟨((List.range n).map f).toArray, by simp⟩

@[simp] theorem getElem_tab {α : Type} (n : Nat) (f : Nat → α) (i : Nat) (h : i < n) : (tab n f)[i] = f i := by
  simp [tab]

/-- The 32 lanes of a vector register, of a latch or of an accumulator (R2, R73, R262). -/
abbrev Lanes := Vector Word32 32
/-- Every lane holding the same word. -/
def Lanes.all (w : Word32) : Lanes := tab 32 fun _ => w
/-- All lanes zero: the value of R62. -/
def Lanes.zero : Lanes := Lanes.all 0#32
/-- Lane l, and 0 beyond the last lane. -/
def Lanes.get (v : Lanes) (l : Nat) : Word32 := v.toArray.toList.getD l 0#32

/-- A sparse table: the entries that differ from their reset value, in rising key order. -/
abbrev Tbl (α : Type) := List (Nat × α)

end Sys2Proof
end

