-- ==== Sys2Proof/Syntax.lean ====
section
/-! DEFINITION. The syntax of the machine: operand specifiers (R73), the fields of an L or X form (R71), the types of R78,
and Instr, one constructor for each row of spec/opcode_table.json: 16 short forms, 164 major opcodes (each with the fields
of its L or X form), and the 100 operations and events that the host, the engines and the package perform. Numbers in
events name things as the management space does (R348): d a C-die 0-7, m an M-die 0-3, c a cluster 0-15 (2d + k),
g a grid 0-383 (24c + physical position), p a physical row (32g + row), cid a context slot (4p + slot plane).
An event written without an argument acts on the first thing in the state that is due for it, in the order its meaning
says (Lean's runtime needs the constructors past the 245th to have no field, so those stand last). -/
namespace Sys2Proof

/-- The element types of the mod field (R78), in field order. -/
inductive Ty
  | i8 | i16 | i32 | i64 | n8 | n16 | n32 | n64 | f32 | f16 | bf16 | t8 | t6 | t4
  deriving DecidableEq, Repr

/-- What an operand specifier byte names (R73). -/
inductive Operand
  | v (n : Fin 64) | s (n : Fin 160) | latch (n : Fin 8) | pn | ps | laneid | zero
  /-- 0xEC to 0xFA, the constants of R75 in table order -/
  | const (n : Fin 15)
  /-- 0xFB to 0xFE -/
  | resv (n : Fin 4)
  | lit
  deriving DecidableEq, Repr

/-- The form of a long encoding (R67): L, or X with its literal word. -/
inductive Form
  | l | x (lit : Word32)
  deriving DecidableEq, Repr

/-- The fields of an L or X form other than op (R71). Bits [57:56] must be 0 and are not kept. -/
structure Fields where
  form : Form := .l
  chain : Bool := false
  capture : Bool := false
  latch : BitVec 3 := 0
  nowb : Bool := false
  fn : BitVec 5 := 0
  mod : Ty := .i8
  ginv : Bool := false
  guard : BitVec 4 := 15
  d : Operand := .zero
  a : Operand := .zero
  b : Operand := .zero
  c : Operand := .zero
  deriving DecidableEq, Repr

/-- The operations of an atomic (R225, R247). -/
inductive AtomOp
  | add | min | max | and | or | xor | swap | cas
  deriving DecidableEq, Repr

/-- An access that reaches memory at home from outside the rows (R28, R217, R247). -/
inductive MemAcc
  | read (n : Nat) | write (bytes : List Byte) | atomic (op : AtomOp) (ty : Ty) (operand expected : Word64)
  deriving DecidableEq, Repr

/-- Where a register write is aimed: a function's BAR0 (R28), the management space (R348), or the host's configuration of a
window (R351). -/
inductive RegSpace
  | bar0 (fn : Nat) | mgmt
  /-- one of the two windows of R351: base at offset 0, limit at 8 -/
  | window (k : Nat)
  deriving DecidableEq, Repr

/-- How a request for a line is answered: a beat's at this device's home, with a peer's or the host's bytes, or with a status of R215; a die
cache's write-back, by its number, with the acknowledgement of the peer or the host that took it (R313). -/
inductive BeatReply
  | home | data (bytes : List Byte) | status (st : Nat) | acked (n : Nat)
  deriving DecidableEq, Repr

/-- What a parked context waits on (R283). -/
inductive WaitObj
  | future (handle : Word32) | barrier (blk : Nat) (band : Option Nat) (k : Nat) | range (blk : Nat) | watch (cid : Nat)
  deriving DecidableEq, Repr

/-- Where an uncorrectable error is met (R325, R334): an access under way (of a load, the k-th of the lines it reads; of a walk, its first, second, third or fourth read), a register's storage, or a line of any other SRAM array, by
unit, array and line (log entry 60). -/
inductive ErrSite
  | load (cid id k : Nat) | beat (g op beat : Nat) | walk (d fn granule level : Nat) | fetch (g fn line : Nat)
  | vreg (cid n : Nat) | sreg (cid n : Nat) | acc (cid n : Nat) | sram (unit array line : Nat)
  deriving DecidableEq, Repr

/-- A request of the management data object (R348). -/
inductive DoeReq
  | read (off : Nat) | write (off : Nat) (value : Word64)
  /-- the list of retired pages (R352) -/
  | pages
  deriving DecidableEq, Repr

/-- What the boot ROM finds of the image in module flash (R353): whether its signature holds, and whether the public key's digest is the fused one. -/
structure Signature where
  valid : Bool
  keyFused : Bool
  deriving DecidableEq, Repr

/-- The two averages of module input power, in mW (R349). -/
structure PowerReading where
  last100us : Nat
  last1ms : Nat
  deriving DecidableEq, Repr

/-- The dies (R51). -/
inductive Die
  | c (d : Nat) | m (m : Nat) | x
  deriving DecidableEq, Repr

/-- The parts whose single failure R355 handles. -/
inductive Part
  | cdie (d : Nat) | link (a b : Nat) | ualPort (p : Nat) | journal (m : Nat) | reduction | stack (i : Nat)
  deriving DecidableEq, Repr

/-- A 16-byte acknowledgement and the accelerator it comes from (R43). -/
structure AckWord where
  source : Nat
  word : BitVec 128
  deriving DecidableEq, Repr

/-- One step of the part: a row of spec/opcode_table.json. -/
inductive Instr
  /-- KICK (R30) -/
  | kick (fn bytes : Nat) (value : Word64) (remote : List Byte)
  /-- UPLOAD_COMMIT (R29) -/
  | uploadCommit (fn : Nat) (value : Word64)
  /-- UPLOAD_COPY_VALIDATE (R29) -/
  | uploadCopyValidate (fn : Nat)
  /-- VFSLOT_WRITE (R27) -/
  | vfslotWrite (fn v : Nat) (value : Word64)
  /-- REGISTER_WRITE (R6) -/
  | registerWrite (space : RegSpace) (off : Nat) (value : Word64)
  /-- HOST_BAR2_ACCESS (R28) -/
  | hostBar2Access (fn off : Nat) (acc : MemAcc)
  /-- HOST_CXL_MEM_ACCESS (R26) -/
  | hostCxlMemAccess (range off : Nat) (acc : MemAcc)
  /-- BIN_INSERT (R14) -/
  | binInsert (m : Nat)
  /-- GNOUT_RECORD_ARRIVAL (R39) -/
  | gnoutRecordArrival (len off : Nat) (data : BitVec 512)
  /-- INVOKE_ANSWER (R42) -/
  | invokeAnswer (data : BitVec 128)
  /-- RETIRE_WRITE (R43) -/
  | retireWrite (data : BitVec 128)
  /-- RETIRE_ACK (R43) -/
  | retireAck (data : AckWord)
  /-- DISPATCH_OFFER (R56) -/
  | dispatchOffer (m : Nat)
  /-- ANCHOR_BLOCK (R57) -/
  | anchorBlock (m : Nat)
  /-- STEAL_REQUEST (R58) -/
  | stealRequest (d : Nat)
  /-- STEAL_ANSWER (R58) -/
  | stealAnswer (d : Nat)
  /-- TASK_START_ACTION (R312) -/
  | taskStartAction (task d : Nat)
  /-- CHAIN_STALL_BREAK (R110) -/
  | chainStallBreak (p : Nat)
  /-- WHEEL_STOP (R113) -/
  | wheelStop (c : Nat)
  /-- LOOP_SHED (R117) -/
  | loopShed (cid : Nat)
  /-- WSUP_WRITE (R118) -/
  | wsupWrite (c : Nat) (value : Word64)
  /-- MCADW_WRITE (R119) -/
  | mcadwWrite (g : Nat) (value : Word64)
  /-- RESULT_LANDS (R106) -/
  | resultLands (cid id : Nat)
  /-- HOME_STORE (R206) -/
  | homeStore (cid : Nat)
  /-- STORE_ACK (R206) -/
  | storeAck (cid : Nat)
  /-- SFU_ACCEPT (R196) -/
  | sfuAccept (p : Nat)
  /-- LINK_HANDOFF (R260) -/
  | linkHandoff (cid : Nat)
  /-- LOOP_STEP (R268) -/
  | loopStep (cid : Nat)
  /-- LOOP_COMPLETE (R269) -/
  | loopComplete (cid : Nat)
  /-- LEAT_BEAT_ISSUE (R232) -/
  | leatBeatIssue (g : Nat)
  /-- LEAT_BEAT_COMPLETE (R233) -/
  | leatBeatComplete (g op beat : Nat) (reply : BeatReply)
  /-- PAGE_WALK_COMPLETE (R213) -/
  | pageWalkComplete (d fn granule : Nat) (memError : Bool)
  /-- REQUEST_TIMEOUT (R216) -/
  | requestTimeout (g op beat : Nat)
  /-- DIE_CACHE_EVICT (R217) -/
  | dieCacheEvict (d line : Nat)
  /-- BANK_OP_DONE (R250) -/
  | bankOpDone (g id : Nat)
  /-- PARK_WAKE (R283) -/
  | parkWake (obj : WaitObj)
  /-- WATCH_WAKE_ARRIVAL (R292) -/
  | watchWakeArrival (cid serial : Nat)
  /-- TAKE_TRAP (R326) -/
  | takeTrap (cid : Nat)
  /-- MEMORY_ERROR_RETRY (R334) -/
  | memoryErrorRetry (site : ErrSite) (retryOk : Bool)
  /-- SRAM_LINE_REMAP (R334) -/
  | sramLineRemap (g array line : Nat)
  /-- PREEMPT_REQUEST (R336) -/
  | preemptRequest (blk : Nat)
  /-- BLOCK_FLUSH_RESTART (R337) -/
  | blockFlushRestart (blk : Nat)
  /-- BLOCK_SAVE (R338) -/
  | blockSave (blk : Nat)
  /-- BLOCK_RESTORE (R339) -/
  | blockRestore (blk : Nat)
  /-- SENSOR_UPDATE (R350) -/
  | sensorUpdate (g : Nat) (temp : BitVec 16)
  /-- MIGRATION_CAPTURE (R344) -/
  | migrationCapture (g : Nat)
  /-- DSPLIT_WRITE (R203) -/
  | dsplitWrite (value : Word64)
  /-- SCRW_WRITE (R204) -/
  | scrwWrite (f : Nat) (value : Word64)
  /-- ITCTL_COMMIT (R210) -/
  | itctlCommit (value : Word64)
  /-- TLBINV_WRITE (R214) -/
  | tlbinvWrite (value : Word64)
  /-- PCLAMP_LIMIT_WRITE (R349) -/
  | pclampLimitWrite (value : Word64)
  /-- PCLAMP_CLAMP_CLEAR (R349) -/
  | pclampClampClear (value : Word64)
  /-- POWER_CLAMP (R349) -/
  | powerClamp (power : PowerReading)
  /-- MGMT_DOE_REQUEST (R348) -/
  | mgmtDoeRequest (req : DoeReq)
  /-- PROMORVO_HOST_WRITE (R351) -/
  | promorvoHostWrite (addr : Nat) (data : List Byte)
  /-- GET_CERTIFICATE (R354) -/
  | getCertificate (slot : Nat)
  /-- CHALLENGE (R354) -/
  | challenge (nonce : BitVec 256)
  /-- GET_MEASUREMENTS (R354) -/
  | getMeasurements (index : Nat)
  /-- SPDM_UNSUPPORTED_REQUEST (R354) -/
  | spdmUnsupportedRequest (code : Byte)
  /-- PART_FAILURE (R355) -/
  | partFailure (part : Part)
  /-- COLD_RESET (R357) -/
  | coldReset (signed : Signature) (version : Nat)
  /-- VF_FLR (R357) -/
  | vfFlr (v : Nat)
  /-- VADD_F32_S (R70) -/
  | vaddF32S (d a b : Operand)
  /-- VMUL_F32_S (R70) -/
  | vmulF32S (d a b : Operand)
  /-- VFMA_F32_S (R70) -/
  | vfmaF32S (d a b : Operand)
  /-- VMOV_S (R70) -/
  | vmovS (d a : Operand)
  /-- SMOV_S (R70) -/
  | smovS (d a : Operand)
  /-- SADD_I64_S (R70) -/
  | saddI64S (d a b : Operand)
  /-- SADD_I64_IMM_S (R70) -/
  | saddI64ImmS (d a : Operand) (imm : Byte)
  /-- VADD_I32_S (R70) -/
  | vaddI32S (d a b : Operand)
  /-- VAND_S (R70) -/
  | vandS (d a b : Operand)
  /-- LD_I32_S (R70) -/
  | ldI32S (d a : Operand)
  /-- ST_I32_S (R70) -/
  | stI32S (d a : Operand)
  /-- BRA_S (R70) -/
  | braS (off : BitVec 16)
  /-- LOOP_S (R70) -/
  | loopS (d : Operand) (off : BitVec 16)
  /-- MAND_S (R70) -/
  | mandS (d a b : Operand)
  /-- NOP (R167) -/
  | nop (f : Fields)
  /-- DONE (R168) -/
  | doneRow (f : Fields)
  /-- TRAP (R332) -/
  | trap (f : Fields)
  /-- TRET (R333) -/
  | tret (f : Fields)
  /-- BRK (R332) -/
  | brk (f : Fields)
  /-- SGET (R169) -/
  | sget (f : Fields)
  /-- SSET (R169) -/
  | sset (f : Fields)
  /-- YIELD (R125) -/
  | yield (f : Fields)
  /-- PERF (R126) -/
  | perf (f : Fields)
  /-- ICINV (R171) -/
  | icinv (f : Fields)
  /-- MPOINT (R335) -/
  | mpoint (f : Fields)
  /-- SADD (R153) -/
  | sadd (f : Fields)
  /-- SSUB (R153) -/
  | ssub (f : Fields)
  /-- SMUL (R153) -/
  | smul (f : Fields)
  /-- SMULH (R153) -/
  | smulh (f : Fields)
  /-- SDIV (R153) -/
  | sdiv (f : Fields)
  /-- SREM (R153) -/
  | srem (f : Fields)
  /-- SAND (R153) -/
  | sand (f : Fields)
  /-- SOR (R153) -/
  | sor (f : Fields)
  /-- SXOR (R153) -/
  | sxor (f : Fields)
  /-- SSHL (R153) -/
  | sshl (f : Fields)
  /-- SSHR (R153) -/
  | sshr (f : Fields)
  /-- SSAR (R153) -/
  | ssar (f : Fields)
  /-- SMIN (R153) -/
  | smin (f : Fields)
  /-- SMAX (R153) -/
  | smax (f : Fields)
  /-- SCLZ (R153) -/
  | sclz (f : Fields)
  /-- SPOPC (R153) -/
  | spopc (f : Fields)
  /-- SCMP (R154) -/
  | scmp (f : Fields)
  /-- SSEL (R155) -/
  | ssel (f : Fields)
  /-- SMOV (R156) -/
  | smov (f : Fields)
  /-- SLI (R157) -/
  | sli (f : Fields)
  /-- SLUI (R157) -/
  | slui (f : Fields)
  /-- SADR (R158) -/
  | sadr (f : Fields)
  /-- SEXT (R159) -/
  | sext (f : Fields)
  /-- SBFX (R160) -/
  | sbfx (f : Fields)
  /-- SBFI (R161) -/
  | sbfi (f : Fields)
  /-- BRA (R162) -/
  | bra (f : Fields)
  /-- BC (R162) -/
  | bc (f : Fields)
  /-- BMZ (R162) -/
  | bmz (f : Fields)
  /-- BMNZ (R162) -/
  | bmnz (f : Fields)
  /-- JMP (R164) -/
  | jmp (f : Fields)
  /-- CALL (R162) -/
  | call (f : Fields)
  /-- CALLR (R164) -/
  | callr (f : Fields)
  /-- RET (R164) -/
  | ret (f : Fields)
  /-- LOOP (R162) -/
  | loopBr (f : Fields)
  /-- MAND (R165) -/
  | mand (f : Fields)
  /-- MOR (R165) -/
  | mor (f : Fields)
  /-- MXOR (R165) -/
  | mxor (f : Fields)
  /-- MANDN (R165) -/
  | mandn (f : Fields)
  /-- MNOT (R165) -/
  | mnot (f : Fields)
  /-- MSET (R165) -/
  | mset (f : Fields)
  /-- MGET (R165) -/
  | mget (f : Fields)
  /-- MPOP (R165) -/
  | mpop (f : Fields)
  /-- MFFS (R165) -/
  | mffs (f : Fields)
  /-- MLANE (R165) -/
  | mlane (f : Fields)
  /-- VADD_INT (R177) -/
  | vaddInt (f : Fields)
  /-- VSUB_INT (R177) -/
  | vsubInt (f : Fields)
  /-- VMUL_INT (R177) -/
  | vmulInt (f : Fields)
  /-- VMULH (R177) -/
  | vmulh (f : Fields)
  /-- VMAD (R177) -/
  | vmad (f : Fields)
  /-- VMIN_INT (R177) -/
  | vminInt (f : Fields)
  /-- VMAX_INT (R177) -/
  | vmaxInt (f : Fields)
  /-- VABS_INT (R177) -/
  | vabsInt (f : Fields)
  /-- VAND (R177) -/
  | vand (f : Fields)
  /-- VOR (R177) -/
  | vor (f : Fields)
  /-- VXOR (R177) -/
  | vxor (f : Fields)
  /-- VNOT (R177) -/
  | vnot (f : Fields)
  /-- VSHL (R177) -/
  | vshl (f : Fields)
  /-- VSHR (R177) -/
  | vshr (f : Fields)
  /-- VSAR (R177) -/
  | vsar (f : Fields)
  /-- VPOPC (R177) -/
  | vpopc (f : Fields)
  /-- VADD_F (R178) -/
  | vaddF (f : Fields)
  /-- VSUB_F (R178) -/
  | vsubF (f : Fields)
  /-- VMUL_F (R178) -/
  | vmulF (f : Fields)
  /-- VFMA (R178) -/
  | vfma (f : Fields)
  /-- VFMS (R178) -/
  | vfms (f : Fields)
  /-- VFNMA (R178) -/
  | vfnma (f : Fields)
  /-- VMIN_F (R179) -/
  | vminF (f : Fields)
  /-- VMAX_F (R179) -/
  | vmaxF (f : Fields)
  /-- VABS_F (R179) -/
  | vabsF (f : Fields)
  /-- VNEG (R179) -/
  | vneg (f : Fields)
  /-- VDOT2 (R180) -/
  | vdot2 (f : Fields)
  /-- VRED (R181) -/
  | vred (f : Fields)
  /-- VCLAMP (R179) -/
  | vclamp (f : Fields)
  /-- VRND (R182) -/
  | vrnd (f : Fields)
  /-- VSCALE (R183) -/
  | vscale (f : Fields)
  /-- VCMP (R184) -/
  | vcmp (f : Fields)
  /-- VSEL (R185) -/
  | vsel (f : Fields)
  /-- VMOV (R185) -/
  | vmov (f : Fields)
  /-- VBCAST (R186) -/
  | vbcast (f : Fields)
  /-- VEXT (R186) -/
  | vext (f : Fields)
  /-- VPERM (R187) -/
  | vperm (f : Fields)
  /-- VROT (R187) -/
  | vrot (f : Fields)
  /-- VCOMPRESS (R188) -/
  | vcompress (f : Fields)
  /-- VEXPAND (R188) -/
  | vexpand (f : Fields)
  /-- VSCAN (R189) -/
  | vscan (f : Fields)
  /-- VCLZ (R190) -/
  | vclz (f : Fields)
  /-- VCVT (R191) -/
  | vcvt (f : Fields)
  /-- VCVTO (R193) -/
  | vcvto (f : Fields)
  /-- VPACK (R192) -/
  | vpack (f : Fields)
  /-- VUNPACK (R192) -/
  | vunpack (f : Fields)
  /-- VRCP (R194) -/
  | vrcp (f : Fields)
  /-- VRSQ (R194) -/
  | vrsq (f : Fields)
  /-- VSQRT (R194) -/
  | vsqrt (f : Fields)
  /-- VEXP2 (R194) -/
  | vexp2 (f : Fields)
  /-- VLOG2 (R194) -/
  | vlog2 (f : Fields)
  /-- VSIN (R194) -/
  | vsin (f : Fields)
  /-- VCOS (R194) -/
  | vcos (f : Fields)
  /-- VTANH (R194) -/
  | vtanh (f : Fields)
  /-- VSIGM (R194) -/
  | vsigm (f : Fields)
  /-- LD (R219) -/
  | ld (f : Fields)
  /-- ST (R219) -/
  | st (f : Fields)
  /-- SLD (R220) -/
  | sld (f : Fields)
  /-- SST (R220) -/
  | sst (f : Fields)
  /-- LDB (R221) -/
  | ldb (f : Fields)
  /-- VSPILL (R223) -/
  | vspill (f : Fields)
  /-- VFILL (R223) -/
  | vfill (f : Fields)
  /-- PUSH (R222) -/
  | push (f : Fields)
  /-- POP (R222) -/
  | pop (f : Fields)
  /-- FENCE (R224) -/
  | fence (f : Fields)
  /-- ATOM (R225) -/
  | atom (f : Fields)
  /-- SATOM (R225) -/
  | satom (f : Fields)
  /-- ACAS (R226) -/
  | acas (f : Fields)
  /-- SACAS (R226) -/
  | sacas (f : Fields)
  /-- BKMODE (R249) -/
  | bkmode (f : Fields)
  /-- BKBCAST (R251) -/
  | bkbcast (f : Fields)
  /-- BKMAC (R252) -/
  | bkmac (f : Fields)
  /-- BKGET (R253) -/
  | bkget (f : Fields)
  /-- BKCLR (R254) -/
  | bkclr (f : Fields)
  /-- BKSCAN (R255) -/
  | bkscan (f : Fields)
  /-- CPY (R236) -/
  | cpy (f : Fields)
  /-- CPYG (R237) -/
  | cpyg (f : Fields)
  /-- CPYS (R238) -/
  | cpys (f : Fields)
  /-- CPYT (R240) -/
  | cpyt (f : Fields)
  /-- CPYD (R241) -/
  | cpyd (f : Fields)
  /-- GATOM (R247) -/
  | gatom (f : Fields)
  /-- TCLAIM (R244) -/
  | tclaim (f : Fields)
  /-- TREL (R245) -/
  | trel (f : Fields)
  /-- TSTAT (R246) -/
  | tstat (f : Fields)
  /-- MLOOP (R266) -/
  | mloop (f : Fields)
  /-- MSTEP (R271) -/
  | mstep (f : Fields)
  /-- AZERO (R273) -/
  | azero (f : Fields)
  /-- AMOV (R274) -/
  | amov (f : Fields)
  /-- AST (R275) -/
  | ast (f : Fields)
  /-- BPASS (R276) -/
  | bpass (f : Fields)
  /-- FNEW (R287) -/
  | fnew (f : Fields)
  /-- FSET (R288) -/
  | fset (f : Fields)
  /-- FGET (R287) -/
  | fget (f : Fields)
  /-- FWAIT (R287) -/
  | fwait (f : Fields)
  /-- FTEST (R287) -/
  | ftest (f : Fields)
  /-- FMOV (R287) -/
  | fmov (f : Fields)
  /-- FCANCEL (R289) -/
  | fcancel (f : Fields)
  /-- BAR (R291) -/
  | bar (f : Fields)
  /-- ARRIVE (R291) -/
  | arrive (f : Fields)
  /-- AWAIT (R291) -/
  | awaitBar (f : Fields)
  /-- MON (R293) -/
  | mon (f : Fields)
  /-- MWAIT (R294) -/
  | mwait (f : Fields)
  /-- RINIT (R298) -/
  | rinit (f : Fields)
  /-- RTAKE (R298) -/
  | rtake (f : Fields)
  /-- SPAWN (R47) -/
  | spawn (f : Fields)
  /-- INVOKE (R48) -/
  | invoke (f : Fields)
  /-- QNEW (R49) -/
  | qnew (f : Fields)
  /-- QDEL (R50) -/
  | qdel (f : Fields)
  /-- RDONE (R320) -/
  | rdone (f : Fields)
  /-- FABRIC_MEMORY_REQUEST (R247) -/
  | fabricMemoryRequest (source pa : Nat) (acc : MemAcc)
  /-- ICACHE_LINE_FILL (R88) -/
  | icacheLineFill (g fn line : Nat)
  /-- DIE_GATE (R216) -/
  | dieGate (die : Die)
  /-- SUCCESSOR_START (R23) -/
  | successorStart
  /-- REPLAY_COMPLETE (R34) -/
  | replayComplete
  /-- BIN_TIMER_EXPIRY (R14) -/
  | binTimerExpiry
  /-- QUEUE_TO_BIN (R37) -/
  | queueToBin
  /-- QUEUE_SWAP_OUT (R38) -/
  | queueSwapOut
  /-- QUEUE_SWAP_IN (R38) -/
  | queueSwapIn
  /-- INVOKE_SEND (R42) -/
  | invokeSend
  /-- INVOKE_RESEND (R42) -/
  | invokeResend
  /-- INVOKE_GIVE_UP (R42) -/
  | invokeGiveUp
  /-- RETIRE_WRITE_RESEND (R43) -/
  | retireWriteResend
  /-- RETAINED_ENTRY_EXPIRY (R42) -/
  | retainedEntryExpiry
  /-- GRID_GATE (R64) -/
  | gridGate
  /-- WAKE_WARMUP_END (R64) -/
  | wakeWarmupEnd
  /-- YIELD_EXPIRY (R125) -/
  | yieldExpiry
  /-- REPOLL (R283) -/
  | repoll
  /-- REQUEST_RESERVATION (R116) -/
  | requestReservation
  /-- ACTIVITY_WINDOW_END (R123) -/
  | activityWindowEnd
  /-- CLASS_CHANGE_EFFECT (R124) -/
  | classChangeEffect
  /-- MWAIT_TIMEOUT (R294) -/
  | mwaitTimeout
  /-- RANGE_STEAL (R298) -/
  | rangeSteal
  /-- RDONE_FLUSH (R320) -/
  | rdoneFlush
  /-- RDONE_FLUSH_DONE (R320) -/
  | rdoneFlushDone
  /-- BLOCK_RETIRE (R346) -/
  | blockRetire
  /-- TASK_COMPLETE (R347) -/
  | taskComplete
  /-- DRAIN_TIMEOUT (R337) -/
  | drainTimeout
  /-- MIGRATION_HOLD_LIFT (R344) -/
  | migrationHoldLift
  /-- MIGRATION_CAPTURE_TIMEOUT (R344) -/
  | migrationCaptureTimeout
  /-- MIGRATION_MOVE_DONE (R345) -/
  | migrationMoveDone
  /-- ITABLE_SWITCH (R210) -/
  | itableSwitch
  /-- GET_VERSION (R354) -/
  | getVersion
  /-- GET_CAPABILITIES (R354) -/
  | getCapabilities
  /-- NEGOTIATE_ALGORITHMS (R354) -/
  | negotiateAlgorithms
  /-- GET_DIGESTS (R354) -/
  | getDigests
  /-- WARM_RESET (R357) -/
  | warmReset
  /-- NOP_S (R70) -/
  | nopS
  /-- DONE_S (R70) -/
  | doneS
  /-- MIGRATION_HOLD_RETAKE (R344) -/
  | migrationHoldRetake
  deriving DecidableEq, Repr

end Sys2Proof
end

