-- ==== Sys2Proof/Machine/Bits.lean ====
section
/-! DEFINITION. Bit-field, extension and byte-order helpers, the sparse table's operations, and the two-way reading of
operand specifiers (R73) and of the mod field (R78). -/
namespace Sys2Proof.Machine

/-- Bits [lo + n - 1 : lo] of a natural number. -/
def field (x lo n : Nat) : Nat := (x >>> lo) % 2 ^ n
/-- Bits [hi:lo] of a word, as a natural number (R5's notation). -/
def bitsOf {w : Nat} (x : BitVec w) (hi lo : Nat) : Nat := field x.toNat lo (hi + 1 - lo)
/-- Bit i of a natural number. -/
def bitAt (x i : Nat) : Bool := (x >>> i) % 2 == 1
/-- A Bool as a bit. -/
def ofBool (b : Bool) : Nat := if b then 1 else 0
/-- The value of the low n bits of x read as two's complement. -/
def signed (n x : Nat) : Int :=
  let y := x % 2 ^ n
  if 2 * y < 2 ^ n then (y : Int) else (y : Int) - (2 ^ n : Nat)
/-- The low n bits of an integer in two's complement. -/
def wrap (n : Nat) (x : Int) : Nat := (x % (2 ^ n : Nat)).toNat
/-- A 64-bit word from an integer, modulo 2^64. -/
def word64 (x : Int) : Word64 := BitVec.ofNat 64 (wrap 64 x)
/-- SignExtend of the low n bits to 64 bits. -/
def sext64 (n x : Nat) : Word64 := word64 (signed n x)
/-- ZeroExtend of the low n bits to 64 bits. -/
def zext64 (n x : Nat) : Word64 := BitVec.ofNat 64 (x % 2 ^ n)
/-- n bytes of x, least significant first (R9, R68). -/
def leBytes (n x : Nat) : List Byte := (List.range n).map fun i => BitVec.ofNat 8 (x >>> (8 * i))
/-- The number whose little-endian bytes these are. -/
def leNat : List Byte → Nat
  | [] => 0
  | b :: bs => b.toNat + 256 * leNat bs
/-- The bits of the mask that are set, in increasing lane order. -/
def lanesOf (m : Word32) : List Nat := (List.range 32).filter fun l => m.getLsbD l
/-- A mask from a predicate on lanes. -/
def maskOf (p : Nat → Bool) : Word32 :=
  BitVec.ofNat 32 ((List.range 32).foldl (fun acc l => if p l then acc + 2 ^ l else acc) 0)
/-- The number of ones of a mask. -/
def popcount (m : Word32) : Nat := (lanesOf m).length

/-- Insertion sort by a "comes no later" test: what comes first among equals stays first. -/
def insertBy {α : Type} (le : α → α → Bool) (x : α) : List α → List α
  | [] => [x]
  | y :: ys => if le y x then y :: insertBy le x ys else x :: y :: ys
def sortBy {α : Type} (le : α → α → Bool) (l : List α) : List α := l.foldl (fun acc x => insertBy le x acc) []

/-! ### The sparse table -/
namespace Tables
/-- The entry at k. -/
def get? {α : Type} (t : Tbl α) (k : Nat) : Option α := (t.find? fun e => e.1 == k).map (·.2)
/-- Store at k, keeping the keys rising. -/
def set {α : Type} (k : Nat) (v : α) : Tbl α → Tbl α
  | [] => [(k, v)]
  | e :: t => if k < e.1 then (k, v) :: e :: t else if k == e.1 then (k, v) :: t else e :: set k v t
/-- Remove the entry at k. -/
def erase {α : Type} (t : Tbl α) (k : Nat) : Tbl α := t.filter fun e => e.1 != k
/-- The keys, rising. -/
def keys {α : Type} (t : Tbl α) : List Nat := t.map (·.1)
/-- Change every entry. -/
def mapVal {α : Type} (f : Nat → α → α) (t : Tbl α) : Tbl α := t.map fun e => (e.1, f e.1 e.2)
end Tables

/-! ### Specifiers and types -/
/-- The operand a specifier byte names (R73). -/
def operandOf (x : Byte) : Operand :=
  let n := x.toNat
  if h : n < 64 then .v ⟨n, h⟩
  else if h : n < 224 then .s ⟨n - 64, by omega⟩
  else if h : n < 232 then .latch ⟨n - 224, by omega⟩
  else if n = 232 then .pn
  else if n = 233 then .ps
  else if n = 234 then .laneid
  else if n = 235 then .zero
  else if h : n < 251 ∧ 236 ≤ n then .const ⟨n - 236, by omega⟩
  else if h : n < 255 ∧ 251 ≤ n then .resv ⟨n - 251, by omega⟩
  else .lit
/-- The specifier byte of an operand (R73). -/
def Operand.byte : Operand → Byte
  | .v n => BitVec.ofNat 8 n.val
  | .s n => BitVec.ofNat 8 (64 + n.val)
  | .latch n => BitVec.ofNat 8 (224 + n.val)
  | .pn => 0xE8 | .ps => 0xE9 | .laneid => 0xEA | .zero => 0xEB
  | .const n => BitVec.ofNat 8 (236 + n.val)
  | .resv n => BitVec.ofNat 8 (251 + n.val)
  | .lit => 0xFF
/-- The specifier byte, as a number. -/
def byteOf (o : Operand) : Nat := (Operand.byte o).toNat

/-- The type of a mod value; 0xE and 0xF are reserved (R78). -/
def tyOf : Nat → Option Ty
  | 0 => some .i8 | 1 => some .i16 | 2 => some .i32 | 3 => some .i64
  | 4 => some .n8 | 5 => some .n16 | 6 => some .n32 | 7 => some .n64
  | 8 => some .f32 | 9 => some .f16 | 10 => some .bf16 | 11 => some .t8 | 12 => some .t6 | 13 => some .t4
  | _ => none
/-- The mod value of a type (R78). -/
def tyCode : Ty → Nat
  | .i8 => 0 | .i16 => 1 | .i32 => 2 | .i64 => 3 | .n8 => 4 | .n16 => 5 | .n32 => 6 | .n64 => 7
  | .f32 => 8 | .f16 => 9 | .bf16 => 10 | .t8 => 11 | .t6 => 12 | .t4 => 13
/-- The width in bits of an element (R78, R127; a t6 code takes a byte of a lane, R137). -/
def tyWidth : Ty → Nat
  | .i8 | .n8 | .t8 | .t6 => 8
  | .i16 | .n16 | .f16 | .bf16 => 16
  | .i32 | .n32 | .f32 => 32
  | .i64 | .n64 => 64
  | .t4 => 4
/-- Elements in a lane (R191). -/
def tyPerLane (t : Ty) : Nat := 32 / tyWidth t
/-- The i types are signed (R127). -/
def tySigned : Ty → Bool
  | .i8 | .i16 | .i32 | .i64 => true
  | _ => false
/-- Integer types. -/
def tyInt : Ty → Bool
  | .i8 | .i16 | .i32 | .i64 | .n8 | .n16 | .n32 | .n64 => true
  | _ => false
/-- IEEE types (R130). -/
def tyFloat : Ty → Bool
  | .f32 | .f16 | .bf16 => true
  | _ => false
/-- Tapered types (R133). -/
def tyTaper : Ty → Bool
  | .t8 | .t6 | .t4 => true
  | _ => false
/-- Ext of R153: sign-extension for i types, zero-extension otherwise. -/
def extTy (t : Ty) (x : Nat) : Word64 := if tySigned t then sext64 (tyWidth t) x else zext64 (tyWidth t) x

/-- The fields an L or X form's bits [41:26] hold as one immediate: c is the high byte (R71, R157, R332). -/
def imm16 (f : Fields) : Nat := byteOf f.c * 256 + byteOf f.b
/-- The special-register index of sget and sset, bits [37:26] (R169). -/
def sysIndex (f : Fields) : Nat := imm16 f % 4096
/-- The literal word, 0 outside the X form (R72). -/
def litOf (f : Fields) : Word32 := match f.form with | .l => 0 | .x w => w
/-- The length of an L or X form (R67). -/
def lenOf (f : Fields) : Nat := match f.form with | .l => 8 | .x _ => 12
/-- Whether the form is X. -/
def isX (f : Fields) : Bool := match f.form with | .l => false | .x _ => true

end Sys2Proof.Machine
end

