-- ==== Sys2Proof/Machine/Numbers.lean ====
section
/-! DEFINITION. The numbers a row computes with (R127 to R149): IEEE values taken apart, exact sums and products, the one
rounding of R131 with its flags, the tapered formats and RoundT, and the step value and dot step of R145. -/
namespace Sys2Proof.Machine

/-! ### Flags (R132) -/
abbrev Flags := BitVec 5
def fNv : Flags := 1
def fDz : Flags := 2
def fOf : Flags := 4
def fUf : Flags := 8
def fNx : Flags := 16

/-! ### IEEE values -/
/-- An IEEE layout: exponent and fraction widths (R130). -/
structure Fp where
  eb : Nat
  mb : Nat
  deriving DecidableEq, Repr
def fpF32 : Fp := ⟨8, 23⟩
def fpF16 : Fp := ⟨5, 10⟩
def fpBf16 : Fp := ⟨8, 7⟩
/-- The layout of a float type. -/
def fpOf : Ty → Fp
  | .f16 => fpF16
  | .bf16 => fpBf16
  | _ => fpF32
def Fp.bias (p : Fp) : Nat := 2 ^ (p.eb - 1) - 1
def Fp.width (p : Fp) : Nat := p.eb + p.mb + 1
def Fp.signBit (p : Fp) : Nat := 2 ^ (p.eb + p.mb)
/-- The canonical quiet NaN (R130). -/
def Fp.qnan (p : Fp) : Nat := (2 ^ p.eb - 1) * 2 ^ p.mb + 2 ^ (p.mb - 1)
def Fp.infinity (p : Fp) (neg : Bool) : Nat := (2 ^ p.eb - 1) * 2 ^ p.mb + ofBool neg * p.signBit
def Fp.maxFinite (p : Fp) (neg : Bool) : Nat := p.infinity neg - 1
def Fp.zeroBits (p : Fp) (neg : Bool) : Nat := ofBool neg * p.signBit

/-- A float's value: a NaN (signalling or quiet), an infinity, or (-1)^neg × m × 2^e, with signed zeros. -/
inductive FVal
  | nan (sig : Bool) | inf (neg : Bool) | fin (neg : Bool) (m : Nat) (e : Int)
  deriving DecidableEq, Repr

/-- The value of a pattern; subnormals at their value (R130). -/
def valF (p : Fp) (x : Nat) : FVal :=
  let neg := bitAt x (p.eb + p.mb)
  let ex := field x p.mb p.eb
  let fr := x % 2 ^ p.mb
  if ex = 2 ^ p.eb - 1 then
    if fr = 0 then .inf neg else .nan (fr < 2 ^ (p.mb - 1))
  else if ex = 0 then .fin neg fr (1 - (p.bias : Int) - p.mb)
  else .fin neg (2 ^ p.mb + fr) ((ex : Int) - p.bias - p.mb)

def FVal.isNan : FVal → Bool | .nan _ => true | _ => false
def FVal.isSig : FVal → Bool | .nan s => s | _ => false
def FVal.isInf : FVal → Bool | .inf _ => true | _ => false
def FVal.isZero : FVal → Bool | .fin _ m _ => m == 0 | _ => false
def FVal.neg? : FVal → Bool | .nan _ => false | .inf n => n | .fin n _ _ => n
/-- The value with its sign inverted. -/
def FVal.negate : FVal → FVal | .nan s => .nan s | .inf n => .inf (!n) | .fin n m e => .fin (!n) m e
/-- The value with its sign cleared. -/
def FVal.abs : FVal → FVal | .nan s => .nan s | .inf _ => .inf false | .fin _ m e => .fin false m e

/-- m × 2^(e - q) as an integer, for q ≤ e. -/
def alignTo (q : Int) (neg : Bool) (m : Nat) (e : Int) : Int :=
  let v : Int := (m * 2 ^ (e - q).toNat : Nat)
  if neg then -v else v
/-- Compare two finite values exactly. -/
def cmpFin (n1 : Bool) (m1 : Nat) (e1 : Int) (n2 : Bool) (m2 : Nat) (e2 : Int) : Ordering :=
  compare (alignTo (min e1 e2) n1 m1 e1) (alignTo (min e1 e2) n2 m2 e2)
/-- Compare two values, infinities included; none when either is a NaN. -/
def cmpF (x y : FVal) : Option Ordering :=
  match x, y with
  | .nan _, _ | _, .nan _ => none
  | .inf a, .inf b => some (compare b a)
  | .inf a, _ => some (if a then .lt else .gt)
  | _, .inf b => some (if b then .gt else .lt)
  | .fin n1 m1 e1, .fin n2 m2 e2 => some (cmpFin n1 m1 e1 n2 m2 e2)

/-! ### The one rounding (R131) -/
/-- Whether rounding mode rm (R79) takes the larger magnitude: remainder r of 2^sh, last kept bit odd. -/
def roundsUp (rm : Nat) (neg odd : Bool) (r sh : Nat) : Bool :=
  match rm with
  | 0 => decide (2 * r > 2 ^ sh) || (decide (2 * r = 2 ^ sh) && odd)
  | 1 => false
  | 2 => neg && decide (r ≠ 0)
  | _ => !neg && decide (r ≠ 0)
/-- m divided by 2^sh, rounded; sh not positive multiplies. The flag says inexact. -/
def shiftRound (rm : Nat) (neg : Bool) (m : Nat) (sh : Int) : Nat × Bool :=
  if sh ≤ 0 then (m * 2 ^ (-sh).toNat, false)
  else
    let s := sh.toNat
    let q := m / 2 ^ s
    let r := m % 2 ^ s
    (if roundsUp rm neg (q % 2 == 1) r s then q + 1 else q, r != 0)
/-- (-1)^neg × m × 2^e, m not 0, rounded to the format under rm, with fn[2] saturation (R131). -/
def roundFin (p : Fp) (rm : Nat) (sat neg : Bool) (m : Nat) (e : Int) : Nat × Flags :=
  let emin : Int := 1 - (p.bias : Int)
  let ex : Int := (Nat.log2 m : Int) + e
  let q : Int := max ex emin - p.mb
  let (m1, nx) := shiftRound rm neg m (q - e)
  -- tininess is detected after rounding, as if the exponent had no bound
  let tiny := decide (ex < emin) &&
    !(decide (ex = emin - 1) && decide ((shiftRound rm neg m (ex - p.mb - e)).1 = 2 ^ (p.mb + 1)))
  let sign := ofBool neg * p.signBit
  let (m2, q2) : Nat × Int := if m1 = 2 ^ (p.mb + 1) then (2 ^ p.mb, q + 1) else (m1, q)
  if m2 < 2 ^ p.mb then (sign + m2, (if nx then fNx else 0) ||| (if nx && tiny then fUf else 0))
  else
    let be : Int := q2 + p.mb + p.bias
    if be ≥ (2 ^ p.eb - 1 : Nat) then
      let toInf := match rm with | 0 => true | 1 => false | 2 => neg | _ => !neg
      (if toInf && !sat then p.infinity neg else p.maxFinite neg, fOf ||| fNx)
    else (sign + be.toNat * 2 ^ p.mb + (m2 - 2 ^ p.mb), (if nx then fNx else 0) ||| (if nx && tiny then fUf else 0))
/-- A value in a format: NaN canonical, infinity saturated when asked, finite rounded. No invalid flag is added here. -/
def roundF (p : Fp) (rm : Nat) (sat : Bool) : FVal → Nat × Flags
  | .nan _ => (p.qnan, 0)
  | .inf n => (if sat then p.maxFinite n else p.infinity n, 0)
  | .fin n m e => if m = 0 then (p.zeroBits n, 0) else roundFin p rm sat n m e

/-! ### Exact products and sums -/
/-- The exact product; the flag says an invalid ∞ × 0. -/
def mulF (x y : FVal) : FVal × Bool :=
  match x, y with
  | .nan s, _ => (.nan s, false)
  | _, .nan s => (.nan s, false)
  | .inf a, .inf b => (.inf (a != b), false)
  | .inf a, .fin b m _ | .fin b m _, .inf a => if m = 0 then (.nan false, true) else (.inf (a != b), false)
  | .fin a m e, .fin b n k => (.fin (a != b) (m * n) (e + k), false)
/-- The exact sum of terms; a zero sum has the sign every term has, or else + (− under RDN, rm 2) (R131, R180). The flag
says an invalid ∞ − ∞. -/
def sumF (rm : Nat) (ts : List FVal) : FVal × Bool :=
  if ts.any FVal.isNan then (.nan false, false)
  else if ts.any FVal.isInf then
    if ts.any (· == .inf true) && ts.any (· == .inf false) then (.nan false, true)
    else (.inf (ts.any (· == .inf true)), false)
  else
    let q := ts.foldl (fun a t => match t with | .fin _ _ e => min a e | _ => a) 0
    let v := ts.foldl (fun a t => match t with | .fin n m e => a + alignTo q n m e | _ => a) (0 : Int)
    if v = 0 then
      (.fin (if ts.all (fun t => t.isZero && t.neg?) then true
        else if ts.all (fun t => t.isZero && !t.neg?) then false else rm == 2) 0 0, false)
    else (.fin (decide (v < 0)) v.natAbs q, false)
/-- Sum of products plus addends, rounded once, with nv for a signalling input or an invalid operation (R130, R178, R180). -/
def sumProducts (p : Fp) (rm : Nat) (sat : Bool) (prods : List (FVal × FVal)) (adds : List FVal) : Nat × Flags :=
  let ps := prods.map fun t => mulF t.1 t.2
  let sig := prods.any (fun t => t.1.isSig || t.2.isSig) || adds.any FVal.isSig
  let bad := ps.any (·.2)
  let (v, bad2) := sumF rm (ps.map (·.1) ++ adds)
  let (r, fl) := roundF p rm sat v
  (r, fl ||| (if sig || bad || bad2 then fNv else 0))
/-- vadd and RNE float addition (R178, R225). -/
def addFp (p : Fp) (rm : Nat) (sat : Bool) (x y : Nat) : Nat × Flags := sumProducts p rm sat [] [valF p x, valF p y]

/-! ### Minimum, maximum, comparison (R179, R184) -/
/-- vmin and vmax: −0 below +0; one NaN gives the other operand, two the canonical NaN. -/
def minMaxF (p : Fp) (mx : Bool) (x y : Nat) : Nat × Flags :=
  let a := valF p x
  let b := valF p y
  let fl : Flags := if a.isSig || b.isSig then fNv else 0
  let r := match cmpF a b with
    | none => if a.isNan then (if b.isNan then p.qnan else y) else x
    | some .lt => if mx then y else x
    | some .gt => if mx then x else y
    | some .eq => if a.neg? == b.neg? then x else if a.neg? == mx then y else x
  (r, fl)

/-! ### Tapered formats (R133 to R139) -/
/-- n of R133: magnitude-code bits. -/
def tBits : Ty → Nat | .t6 => 5 | .t4 => 3 | _ => 7
/-- Width in bits of a code as stored in a lane or record: 8, 6 or 4. -/
def tCodeBits (t : Ty) : Nat := tBits t + 1
/-- The NaR code (R138). -/
def narCode (t : Ty) : Nat := 2 ^ tBits t
/-- Table of R133 by (format, L): e bits, f bits, B; the d bit is there unless L is the last. -/
def taperRow (t : Ty) (l : Nat) : Nat × Nat × Nat :=
  match t with
  | .t6 => match l with | 0 => (1, 2, 0) | 1 => (2, 0, 2) | 2 => (1, 0, 6) | 3 => (0, 0, 8) | _ => (0, 0, 9)
  | .t4 => match l with | 0 => (0, 1, 0) | 1 => (0, 0, 1) | _ => (0, 0, 2)
  | _ => match l with
    | 0 => (1, 4, 0) | 1 => (2, 2, 2) | 2 => (3, 0, 6) | 3 => (2, 0, 14) | 4 => (1, 0, 18) | 5 => (0, 0, 20) | _ => (0, 0, 21)
/-- The magnitude of code c, in units of 2^−21; every tapered value is a multiple of that (R136). -/
def tMag (t : Ty) (c : Nat) : Nat :=
  if c = 0 then 0
  else
    let n := tBits t
    let l := n - 1 - Nat.log2 c
    let (eb, fb, b) := taperRow t l
    let after := n - 1 - l
    if after = 0 then 2 ^ (b + 21)
    else
      let d := bitAt c (after - 1)
      let ex := field c fb eb
      let fr := c % 2 ^ fb
      let x : Nat := if d then 21 - (b + 1) - ex else 21 + b + ex   -- X + 21
      (2 ^ fb + fr) * 2 ^ x / 2 ^ fb
/-- A code is NaR. -/
def tNar (t : Ty) (code : Nat) : Bool := code % 2 ^ tCodeBits t == narCode t
/-- The value of a code other than NaR, in units of 2^−21. -/
def tVal (t : Ty) (code : Nat) : Int :=
  let c := code % 2 ^ tCodeBits t
  let v : Int := tMag t (c % 2 ^ tBits t)
  if c ≥ 2 ^ tBits t then -v else v
/-- A code as a value; NaR as a quiet NaN. -/
def tToF (t : Ty) (code : Nat) : FVal :=
  if tNar t code then .nan false else .fin (decide (tVal t code < 0)) (tVal t code).natAbs (-21)
/-- MaxT: code 1 has the largest magnitude. -/
def tMax (t : Ty) : Nat := tMag t 1
/-- RoundT (R138) with the flags of R139. -/
def roundT (t : Ty) : FVal → Nat × Flags
  | .nan _ | .inf _ => (narCode t, fNv)
  | .fin neg m e =>
    let s := ofBool neg * 2 ^ tBits t
    let k : Int := e + 21
    let sh := (-k).toNat
    let x := m * 2 ^ k.toNat                    -- the magnitude in units of 2^(−21 − sh)
    if m = 0 then (0, 0)
    else if x > tMax t * 2 ^ sh then (s + 1, fOf ||| fNx)
    else
      let codes := List.range (2 ^ tBits t)
      let lo := codes.foldl (fun a c => if tMag t c * 2 ^ sh ≤ x && tMag t c ≥ tMag t a then c else a) 0
      let hi := codes.foldl (fun a c => if tMag t c * 2 ^ sh ≥ x && tMag t c ≤ tMag t a then c else a) 1
      let ml := tMag t lo * 2 ^ sh
      let mh := tMag t hi * 2 ^ sh
      let v := if x - ml < mh - x then lo else if x - ml > mh - x then hi
        else if lo % 2 ≠ hi % 2 then (if lo % 2 = 0 then lo else hi) else lo
      if v = 0 then (0, fUf ||| fNx)
      else (s + v, if ml = mh then 0 else fNx)

/-! ### Elements of any type as values -/
/-- The value an element's bits have as a float-family or integer number. -/
def elemVal (t : Ty) (x : Nat) : FVal :=
  if tyFloat t then valF (fpOf t) x
  else if tyTaper t then tToF t x
  else
    let v : Int := if tySigned t then signed (tyWidth t) x else (x % 2 ^ tyWidth t : Nat)
    .fin (decide (v < 0)) v.natAbs 0
/-- The range of an integer type. -/
def tyMin (t : Ty) : Int := if tySigned t then -(2 ^ (tyWidth t - 1) : Nat) else 0
def tyMax (t : Ty) : Int := (2 ^ (if tySigned t then tyWidth t - 1 else tyWidth t) : Nat) - 1
/-- The nearest value of a type's range. -/
def clampTy (t : Ty) (x : Int) : Int := max (tyMin t) (min (tyMax t) x)
/-- A finite value rounded to an integer under rm; the flag says inexact. -/
def roundInt (rm : Nat) (neg : Bool) (m : Nat) (e : Int) : Int × Bool :=
  let (q, nx) := shiftRound rm neg m (-e)
  (if neg then -(q : Int) else q, nx)

/-- Cvt of R144: one element from src to dst. Whether a value lies outside an integer format's range is asked of the rounded value (log entry 110). -/
def convert (dst src : Ty) (rm : Nat) (sat : Bool) (x : Nat) : Nat × Flags :=
  let v := elemVal src x
  if tyInt dst then
    if tyInt src then
      let i : Int := match v with | .fin n m _ => if n then -(m : Int) else m | _ => 0
      (wrap (tyWidth dst) (if sat then clampTy dst i else i), 0)
    else match v with
      | .nan _ => (0, fNv)
      | .inf n => (wrap (tyWidth dst) (if n then tyMin dst else tyMax dst), fNv)
      | .fin n m e =>
        let (i, nx) := roundInt rm n m e
        if i < tyMin dst ∨ i > tyMax dst then (wrap (tyWidth dst) (clampTy dst i), fNv)
        else (wrap (tyWidth dst) i, if nx then fNx else 0)
  else if tyTaper dst then
    if tyTaper src && tNar src x then (narCode dst, 0) else roundT dst v
  else
    let (r, fl) := roundF (fpOf dst) rm sat v
    (r, fl ||| (if tyFloat src && v.isSig then fNv else 0))

/-! ### The dot step (R145, R146) -/
/-- The exact sum of element products of two byte lists under a tapered format, in units of 2^−42; none on a NaR. -/
def taperDot (t : Ty) : List Nat → List Nat → Option Int
  | x :: xs, y :: ys =>
    if tNar t x || tNar t y then none else (taperDot t xs ys).map (· + tVal t x * tVal t y)
  | _, _ => some 0
/-- Codes of a byte list: one a byte, or two nibbles a byte for t4, low first (R140). -/
def codesOf (t : Ty) (bs : List Byte) : List Nat :=
  if t == .t4 then bs.flatMap fun b => [b.toNat % 16, b.toNat / 16] else bs.map (·.toNat)
/-- Little-endian halfwords of a byte list. -/
def halvesOf : List Byte → List Nat
  | a :: b :: t => (a.toNat + 256 * b.toNat) :: halvesOf t
  | _ => []
/-- StepValue (R145): the exact value of one step over 32-byte chunks with their scale bytes. -/
def stepValue (t : Ty) (a b : List Byte) (sa sb : List Byte) : FVal :=
  if tyFloat t then
    let xs := (halvesOf a).map (valF (fpOf t))
    let ys := (halvesOf b).map (valF (fpOf t))
    (sumF 0 ((xs.zip ys).map fun q => (mulF q.1 q.2).1)).1
  else
    let blocks := if t == .t4 then 2 else 1
    let ca := codesOf t a
    let cb := codesOf t b
    let parts := (List.range blocks).map fun q =>
      let s := (sa.getD q 0).toNat
      let u := (sb.getD q 0).toNat
      if tNar .t8 s || tNar .t8 u then none
      else (taperDot t ((ca.drop (32 * q)).take 32) ((cb.drop (32 * q)).take 32)).map (tVal .t8 s * tVal .t8 u * ·)
    match parts.foldl (fun acc x => match acc, x with | some p, some q => some (p + q) | _, _ => none) (some (0 : Int)) with
    | none => .nan false
    | some v => .fin (decide (v < 0)) v.natAbs (-84)
/-- DotStep (R145): one rounding of a + V; an exactly zero V leaves a unchanged. -/
def dotStep (t : Ty) (acc : Word32) (a b sa sb : List Byte) : Word32 :=
  let x := valF fpF32 acc.toNat
  let v := stepValue t a b sa sb
  if x.isNan || v.isNan then BitVec.ofNat 32 fpF32.qnan
  else if v.isZero then acc
  else BitVec.ofNat 32 (roundF fpF32 0 false (sumF 0 [x, v]).1).1
/-- One line of a bank multiply-accumulate on one accumulator element (R149): two roundings. -/
def bankStep (p : Fp) (acc : Nat) (x0 q0 x1 q1 : Nat) : Nat :=
  let (pr, _) := sumProducts fpF32 0 false [(valF p x0, valF p q0), (valF p x1, valF p q1)] []
  (addFp fpF32 0 false acc pr).1

end Sys2Proof.Machine
end

