-- ==== Sys2Proof/Machine/Rules.lean ====
section
/-! DEFINITION. The encoding rules of every major opcode: the class of each operand field (R74), the mod values, the fn
bits, the forms, the guard and the hints that its entry allows (R71 to R84 and the entries). A pattern that breaks one of
them raises cause 0x01. -/
namespace Sys2Proof.Machine

/-- What a vector source's constants may be (R75). -/
inductive Kind
  | byMod | int | float | untyped
  /-- typed by the b field: vcvt's source (R191) -/
  | srcType
  deriving DecidableEq, Repr

/-- The class of an operand field (R74), with the entry's narrowing. -/
inductive Cls
  | unused
  /-- part of an immediate; the entry's own check applies -/
  | raw
  | vsrc (k : Kind) | vdst | vreg | mask | maskDst | acc
  | ssrc (lit : Bool) | sreg (max : Nat) | sregOpt
  /-- a scalar register or the literal alone: invoke's c (R48) -/
  | sregLit
  /-- a memory base: s, 0xEB, or where allowed v (R218) -/
  | base (vec : Bool)
  /-- an index: s, 0xEB, or where allowed v (R218) -/
  | index (vec : Bool)
  deriving DecidableEq, Repr

/-- The encoding rules of one opcode. -/
structure Desc where
  d : Cls := .unused
  a : Cls := .unused
  b : Cls := .unused
  c : Cls := .unused
  mods : List Ty := [.i8]
  /-- the fn bits the entry defines -/
  fnMask : Nat := 0
  /-- any guard is allowed: the instruction has a lane-time effect (R76) -/
  laneTime : Bool := false
  capture : Bool := false
  nowb : Bool := false
  branch : Bool := false
  lOnly : Bool := false
  deriving DecidableEq, Repr

def ints : List Ty := [.i8, .i16, .i32, .i64, .n8, .n16, .n32, .n64]
def vints : List Ty := [.i8, .i16, .i32, .n8, .n16, .n32]
def floats : List Ty := [.f32, .f16, .bf16]
def words : List Ty := [.i32, .i64, .n32, .n64]
def dots : List Ty := [.t8, .t4, .bf16, .f16]
def slotFmts : List Ty := [.t8, .t6, .t4, .bf16, .f16]
def cvtTys : List Ty := [.i8, .i16, .i32, .n8, .n16, .n32, .f32, .f16, .bf16, .t8, .t6, .t4]

def sAny : Cls := .sreg 159
/-- The mould of R150/R153: a scalar result. -/
def scalarDesc (a b c : Cls) (mods : List Ty) (fnMask : Nat := 0) : Desc :=
  { d := sAny, a := a, b := b, c := c, mods := mods, fnMask := fnMask, nowb := true }
/-- The mould of R165. -/
def maskDesc (d a b : Cls) : Desc := { d := d, a := a, b := b, nowb := true }
/-- The mould of R173. -/
def vecDesc (a b c : Cls) (mods : List Ty) (fnMask : Nat := 0) : Desc :=
  { d := .vdst, a := a, b := b, c := c, mods := mods, fnMask := fnMask, laneTime := true, capture := true, nowb := true }

/-- The rules of a major opcode; none when it is not assigned (R82). -/
def desc (op : Nat) : Option Desc :=
  let vm := Cls.vsrc .byMod
  let vi := Cls.vsrc .int
  let vf := Cls.vsrc .float
  let vu := Cls.vsrc .untyped
  let s := Cls.ssrc true
  let u := Cls.unused
  match op with
  | 0x00 => some {}                                                     -- nop (R167)
  | 0x01 => some {}                                                     -- done (R168)
  | 0x02 => some { a := s }                                             -- trap (R332)
  | 0x03 => some {}                                                     -- tret
  | 0x04 => some { b := .raw, c := .raw, lOnly := true }                -- brk
  | 0x05 => some { d := sAny, b := .raw, c := .raw, nowb := true, lOnly := true }   -- sget (R169)
  | 0x06 => some { a := s, b := .raw, c := .raw }                       -- sset
  | 0x07 => some { lOnly := true }                                      -- yield (R125)
  | 0x08 => some { d := sAny, a := s, nowb := true }                    -- perf (R126)
  | 0x09 => some { lOnly := true }                                      -- icinv (R171)
  | 0x0A => some { d := .sregOpt, nowb := true, lOnly := true }         -- mpoint
  | 0x10 | 0x11 | 0x12 => some (scalarDesc s s u ints 4)                -- sadd ssub smul (R153)
  | 0x13 | 0x14 | 0x15 | 0x16 | 0x17 | 0x18 | 0x19 | 0x1A | 0x1B | 0x1C | 0x1D => some (scalarDesc s s u ints)
  | 0x1E | 0x1F => some (scalarDesc s u u ints)                         -- sclz spopc
  | 0x20 => some (scalarDesc s s u ints 7)                              -- scmp (R154)
  | 0x21 => some (scalarDesc s s s [.i8])                               -- ssel (R155)
  | 0x22 => some (scalarDesc s u u ints)                                -- smov (R156)
  | 0x23 | 0x24 => some { d := sAny, a := .raw, b := .raw, c := .raw, mods := [.i64, .n64], nowb := true }  -- sli slui (R157)
  | 0x25 => some (scalarDesc (.ssrc false) (.ssrc false) s [.i8] 7)     -- sadr (R158)
  | 0x26 => some (scalarDesc s s u [.i64, .n64])                        -- sext (R159)
  | 0x27 => some (scalarDesc s s s [.i64, .n64])                        -- sbfx (R160)
  | 0x28 => some (scalarDesc s s s [.i8])                               -- sbfi (R161)
  | 0x30 => some { b := .raw, c := .raw, branch := true }               -- bra (R162)
  | 0x31 => some { a := .ssrc false, b := .raw, c := .raw, fnMask := 1, branch := true }   -- bc
  | 0x32 | 0x33 => some { a := .mask, b := .raw, c := .raw, branch := true }               -- bmz bmnz
  | 0x34 => some { a := sAny, lOnly := true }                           -- jmp (R164)
  | 0x35 => some { b := .raw, c := .raw, branch := true, nowb := true } -- call
  | 0x36 => some { a := sAny, nowb := true, lOnly := true }             -- callr
  | 0x37 => some { a := sAny, lOnly := true }                           -- ret
  | 0x38 => some { d := sAny, b := .raw, c := .raw, branch := true, nowb := true }         -- loop
  | 0x40 | 0x41 | 0x42 | 0x43 => some (maskDesc .maskDst .mask .mask)   -- mand mor mxor mandn (R165)
  | 0x44 => some (maskDesc .maskDst .mask u)                            -- mnot
  | 0x45 | 0x49 => some (maskDesc .maskDst s u)                         -- mset mlane
  | 0x46 | 0x47 | 0x48 => some (maskDesc sAny .mask u)                  -- mget mpop mffs
  | 0x50 | 0x51 | 0x52 => some (vecDesc vi vi u vints 4)                -- vadd vsub vmul (R177)
  | 0x54 => some (vecDesc vi vi vi vints 4)                             -- vmad
  | 0x57 => some (vecDesc vi u u vints 4)                               -- vabs
  | 0x5B | 0x5F => some (vecDesc vi u u vints)                          -- vnot vpopc
  | 0x53 | 0x55 | 0x56 | 0x58 | 0x59 | 0x5A | 0x5C | 0x5D | 0x5E => some (vecDesc vi vi u vints)
  | 0x60 | 0x61 | 0x62 => some (vecDesc vf vf u floats 7)               -- vadd vsub vmul (R178)
  | 0x63 | 0x64 | 0x65 => some (vecDesc vf vf vf floats 7)              -- vfma vfms vfnma
  | 0x66 | 0x67 => some (vecDesc vf vf u floats)                        -- vmin vmax (R179)
  | 0x68 | 0x69 => some (vecDesc vf u u floats)                         -- vabs vneg
  | 0x6A => some (vecDesc vf vf vf [.f16, .bf16] 7)                     -- vdot2 (R180): c 0xEB is no addend
  | 0x6B => some (vecDesc vf u u [.f32] 31)                             -- vred (R181)
  | 0x6C => some (vecDesc vf vf vf floats)                              -- vclamp
  | 0x6D => some (vecDesc vf u u floats 3)                              -- vrnd (R182)
  | 0x6E => some (vecDesc vf vi u floats 7)                             -- vscale (R183)
  | 0x70 => some { vecDesc vm vm u [.i32, .n32, .f32] 7 with d := .maskDst, capture := false }   -- vcmp (R184)
  | 0x71 => some (vecDesc vu vu .mask [.i32])                           -- vsel (R185)
  | 0x72 => some (vecDesc vu u u [.i32])                                -- vmov
  | 0x73 => some (vecDesc vi s u [.i32])                                -- vbcast (R186)
  | 0x74 => some { vecDesc vi s u [.i32, .n32] with d := sAny, laneTime := false, capture := false }   -- vext
  | 0x75 => some (vecDesc vi vi u [.i32])                               -- vperm (R187)
  | 0x76 => some (vecDesc vi s u [.i32])                                -- vrot
  | 0x77 | 0x78 => some (vecDesc vi .mask u [.i32])                     -- vcompress vexpand (R188)
  | 0x79 => some (vecDesc vi u u [.i32, .n32] 3)                        -- vscan (R189)
  | 0x7A => some (vecDesc vi u u vints)                                 -- vclz (R190)
  | 0x80 => some (vecDesc (.vsrc .srcType) .raw .raw cvtTys 7)          -- vcvt (R191)
  | 0x81 => some (vecDesc vf sAny .maskDst [.t8, .t4] 8)                -- vcvto (R193)
  | 0x82 => some (vecDesc vi vi u [.i8, .n8, .i16, .n16] 4)             -- vpack (R192)
  | 0x83 => some (vecDesc vi u u [.i8, .n8, .i16, .n16] 8)              -- vunpack
  | 0x86 => some (vecDesc vf u u floats 7)                              -- vsqrt (R194)
  | 0x84 | 0x85 | 0x87 | 0x88 | 0x89 | 0x8A | 0x8B | 0x8C => some (vecDesc vf u u floats 4)
  | 0x90 => some { d := .vreg, a := .base true, b := .index true, c := s, mods := vints, fnMask := 7, laneTime := true, capture := true, nowb := true }
  | 0x91 => some { d := .base true, a := vi, b := .index true, c := s, mods := vints, fnMask := 7, laneTime := true }
  | 0x92 => some { d := sAny, a := .base false, b := .index false, c := s, mods := ints, fnMask := 7, nowb := true }
  | 0x93 => some { d := .base false, a := s, b := .index false, c := s, mods := ints, fnMask := 7 }
  | 0x94 => some { d := .vreg, a := .base false, c := s, mods := [.i32], laneTime := true, capture := true }   -- ldb (R221)
  | 0x95 => some { a := .vreg }                                         -- vspill (R223)
  | 0x96 => some { d := .vreg }                                         -- vfill
  | 0x97 => some { a := sAny }                                          -- push (R222)
  | 0x98 => some { d := sAny, nowb := true }                            -- pop
  | 0x99 => some { fnMask := 3, lOnly := true }                         -- fence (R224)
  | 0xA0 => some { d := .vreg, a := .base true, b := vm, c := s, mods := [.i32, .n32, .f32], fnMask := 31, laneTime := true, nowb := true }
  | 0xA1 => some { d := sAny, a := .base false, b := s, c := s, mods := words, fnMask := 31, nowb := true }
  | 0xA2 => some { d := .vreg, a := .base true, b := vi, c := s, mods := [.i32, .n32], fnMask := 24, laneTime := true }
  | 0xA3 => some { d := sAny, a := .base false, b := s, c := s, mods := words, fnMask := 24 }
  | 0xA4 => some { a := s }                                             -- bkmode (R249)
  | 0xA5 => some { a := vu, fnMask := 15 }                              -- bkbcast (R251)
  | 0xA6 => some { a := s, mods := [.f16, .bf16], fnMask := 31 }        -- bkmac (R252)
  | 0xA7 => some { d := .vdst, a := s, mods := [.f32], fnMask := 3, laneTime := true, capture := true, nowb := true }   -- bkget
  | 0xA8 => some { fnMask := 15 }                                       -- bkclr (R254)
  | 0xA9 => some { d := sAny, a := s, b := s, mods := [.i8, .i16, .i32, .f32, .f16, .bf16], nowb := true }   -- bkscan (R255)
  | 0xB0 => some { d := sAny, a := .sreg 152, fnMask := 1 }             -- cpy (R236)
  | 0xB1 => some { d := sAny, a := .sreg 152, b := s, mods := .i8 :: slotFmts, fnMask := 1 }   -- cpyg (R237)
  | 0xB2 => some { d := sAny, a := .sreg 152 }                          -- cpys (R238)
  | 0xB3 => some { d := sAny, a := .sreg 152, b := s, mods := slotFmts, fnMask := 1 }   -- cpyt (R240)
  | 0xB4 => some { d := sAny, a := .sreg 152, b := s }                  -- cpyd (R241)
  | 0xB5 => some { d := sAny, a := sAny, b := s, c := s, mods := .f32 :: words, fnMask := 7 }   -- gatom (R247)
  | 0xB6 => some { d := sAny, nowb := true }                            -- tclaim (R244)
  | 0xB7 => some { a := s }                                             -- trel (R245)
  | 0xB8 => some { d := sAny, a := s, nowb := true }                    -- tstat (R246)
  | 0xC0 => some { d := .acc, a := sAny, b := .sregOpt, mods := dots, lOnly := true }   -- mloop (R266)
  | 0xC1 => some { d := .acc, a := sAny, mods := dots, lOnly := true }  -- mstep (R271)
  | 0xC2 => some { d := .acc, fnMask := 15, laneTime := true, lOnly := true }           -- azero (R272)
  | 0xC3 => some { d := .acc, a := .vreg, mods := [.f32], fnMask := 31, laneTime := true, lOnly := true }   -- amov
  | 0xC4 => some { d := .acc, a := sAny, b := .ssrc false, c := s, mods := [.f32, .f16, .bf16], fnMask := 31, laneTime := true }   -- ast
  | 0xC5 => some { a := s }                                             -- bpass (R276)
  | 0xD0 => some { d := sAny, nowb := true }                            -- fnew (R287)
  | 0xD1 => some { d := sAny, a := sAny, b := s, fnMask := 1, nowb := true }   -- fset
  | 0xD2 => some { d := .sreg 158, a := sAny }                          -- fget
  | 0xD3 | 0xD4 | 0xD6 => some { d := sAny, a := sAny, nowb := true }   -- fwait ftest fcancel
  | 0xD5 => some { d := sAny, a := sAny }                               -- fmov
  | 0xD7 => some { fnMask := 15 }                                       -- bar (R291)
  | 0xD8 => some { d := sAny, fnMask := 15, nowb := true }              -- arrive
  | 0xD9 => some { a := s, fnMask := 15 }                               -- await
  | 0xDA => some { a := sAny, fnMask := 1 }                             -- mon (R293)
  | 0xDB => some { d := sAny, a := s, nowb := true }                    -- mwait (R294)
  | 0xDC => some { a := s, b := s }                                     -- rinit (R298)
  | 0xDD => some { d := sAny }                                          -- rtake
  | 0xE0 => some { d := sAny, a := .sreg 154, b := s, nowb := true }    -- spawn (R47)
  | 0xE1 => some { d := sAny, a := .sreg 154, b := s, c := .sregLit, nowb := true }   -- invoke (R48)
  | 0xE2 => some { d := sAny, a := sAny, b := sAny, nowb := true }      -- qnew (R49)
  | 0xE3 => some { d := sAny, a := sAny, nowb := true }                 -- qdel (R50)
  | 0xE4 => some { d := sAny, a := s, nowb := true }                    -- rdone (R320)
  | _ => none

/-- Integer constants of R75: 1 2 4 8 16 32 64, -1, 3 5 7. -/
def constIsInt (n : Nat) : Bool := n ≤ 6 || n == 10 || 12 ≤ n
/-- The special registers of R170: index, and whether sset may write it. -/
def specialRegs : List (Nat × Bool) :=
  [(0x001, false), (0x002, false), (0x003, false), (0x004, false), (0x005, false), (0x006, false), (0x007, false),
   (0x008, false), (0x009, false), (0x010, false), (0x011, false), (0x012, false), (0x013, false), (0x020, false),
   (0x021, false), (0x022, false), (0x023, true), (0x030, false), (0x031, false), (0x032, true), (0x033, true),
   (0x034, false), (0x035, false), (0x036, false), (0x037, false), (0x038, false), (0x039, false), (0x03A, false),
   (0x03B, false), (0x03C, true), (0x03D, true)]

/-- Whether a vector source may name this constant under the kind and the mod (R75). -/
def constOk (k : Kind) (ty : Ty) (src : Option Ty) (n : Nat) : Bool :=
  let byTy (t : Ty) := if tyTaper t then false else if tyFloat t then true else constIsInt n
  match k with
  | .byMod => byTy ty
  | .int => constIsInt n
  | .float | .untyped => true
  | .srcType => match src with | some t => byTy t | none => false

/-- Whether an operand is in its field's class (R74). -/
def clsOk (cls : Cls) (ty : Ty) (src : Option Ty) (o : Operand) : Bool :=
  match cls, o with
  | .unused, .zero => true
  | .raw, _ => true
  | .vsrc _, .v _ | .vsrc _, .s _ | .vsrc _, .latch _ | .vsrc _, .pn | .vsrc _, .laneid | .vsrc _, .zero | .vsrc _, .lit => true
  | .vsrc k, .const n => constOk k ty src n.val
  | .vdst, .v _ | .vdst, .ps => true
  | .vreg, .v _ => true
  | .mask, .v n => n.val < 16
  | .maskDst, .v n => n.val < 15
  | .acc, .v n => n.val < 16
  | .ssrc _, .s _ | .ssrc _, .zero => true
  | .ssrc _, .const n => constIsInt n.val
  | .ssrc l, .lit => l
  | .sreg m, .s n => n.val ≤ m
  | .sregOpt, .s _ | .sregOpt, .zero => true
  | .sregLit, .s _ | .sregLit, .lit => true
  | .base _, .s _ | .base _, .zero => true
  | .base v, .v _ => v
  | .index _, .s _ | .index _, .zero => true
  | .index v, .v _ => v
  | _, _ => false

/-- A field that is a specifier and holds 0xFF (R72). -/
def namesLit (cls : Cls) (o : Operand) : Bool := cls != .raw && o == .lit

/-- The fn rule of R144's last column for a conversion pair. -/
def cvtFnOk (dst src : Ty) (fn : Nat) : Bool :=
  if tyTaper dst then fn == 0
  else if tyInt src && tyInt dst then fn % 4 == 0
  else if tyInt dst then bitAt fn 2 == false
  else if tyInt src then true
  else if tyTaper src then dst == .f16 || fn == 0
  else if dst == .f32 then fn == 0 else true

/-- The rules an entry states beyond the classes. -/
def extraOk (op : Nat) (f : Fields) : Bool :=
  let fn := f.fn.toNat
  match op with
  | 0x05 | 0x06 => byteOf f.c < 16 && specialRegs.any fun e => e.1 == sysIndex f
  | 0x20 | 0x70 => fn != 7
  | 0x23 | 0x24 => if isX f then f.a == .lit && imm16 f == 0 else f.a == .zero
  | 0x6B => fn / 8 != 3
  | 0x80 =>
    match tyOf (byteOf f.b) with
    | some src =>
      cvtTys.contains src && src != f.mod && cvtFnOk f.mod src fn &&
        byteOf f.c < max (tyPerLane src) (tyPerLane f.mod) / min (tyPerLane src) (tyPerLane f.mod)
    | none => false
  | 0xA0 => fn % 8 != 7 && (f.mod != .f32 || fn % 8 == 0)
  | 0xA1 => fn % 8 != 7
  | 0xB1 => if f.mod == .i8 then f.b == .zero && fn == 0 else true
  | 0xB5 => (f.mod != .f32 || fn == 0) && (fn == 7 || f.c == .zero)
  | 0xC2 | 0xC4 => byteOf f.d + fn % 16 + 1 ≤ 16
  | 0xC3 => byteOf f.d + fn % 16 + 1 ≤ 16 && byteOf f.a + fn % 16 + 1 ≤ 64
  | _ => true

/-- Every encoding rule of an L or X form (R84). -/
def legal (op : Nat) (f : Fields) : Bool :=
  match desc op with
  | none => false
  | some e =>
    let src := tyOf (byteOf f.b)
    let lits := namesLit e.d f.d || namesLit e.a f.a || namesLit e.b f.b || namesLit e.c f.c
      || ((op == 0x23 || op == 0x24) && f.a == .lit)
    let fn := f.fn.toNat
    e.mods.contains f.mod && clsOk e.d f.mod src f.d && clsOk e.a f.mod src f.a && clsOk e.b f.mod src f.b
      && clsOk e.c f.mod src f.c && (fn &&& e.fnMask == fn)
      && (e.laneTime || (f.guard == 15 && !f.ginv))
      && (e.capture || !f.capture) && (f.capture || f.latch == 0) && (e.nowb || !f.nowb)
      && (if isX f then !e.lOnly && (if e.branch then imm16 f == 0 else lits) else !lits)
      && extraOk op f

end Sys2Proof.Machine
end

