-- ==== Sys2Proof/WellFormed.lean ====
section
/-! DEFINITION. Which instructions are well formed: a program instruction obeys every encoding rule of its entry (R70,
R84), and an event names parts of the package that exist (R2, R348). Also the two views of a program instruction: its
major opcode with its fields, and a short form's expansion (R69, R70). -/
namespace Sys2Proof
open Sys2Proof.Machine

/-- The major opcode and fields of an L or X form (R71, R82). -/
def Instr.long? : Instr → Option (Nat × Fields)
  | .nop f => some (0x00, f)
  | .doneRow f => some (0x01, f)
  | .trap f => some (0x02, f)
  | .tret f => some (0x03, f)
  | .brk f => some (0x04, f)
  | .sget f => some (0x05, f)
  | .sset f => some (0x06, f)
  | .yield f => some (0x07, f)
  | .perf f => some (0x08, f)
  | .icinv f => some (0x09, f)
  | .mpoint f => some (0x0A, f)
  | .sadd f => some (0x10, f)
  | .ssub f => some (0x11, f)
  | .smul f => some (0x12, f)
  | .smulh f => some (0x13, f)
  | .sdiv f => some (0x14, f)
  | .srem f => some (0x15, f)
  | .sand f => some (0x16, f)
  | .sor f => some (0x17, f)
  | .sxor f => some (0x18, f)
  | .sshl f => some (0x19, f)
  | .sshr f => some (0x1A, f)
  | .ssar f => some (0x1B, f)
  | .smin f => some (0x1C, f)
  | .smax f => some (0x1D, f)
  | .sclz f => some (0x1E, f)
  | .spopc f => some (0x1F, f)
  | .scmp f => some (0x20, f)
  | .ssel f => some (0x21, f)
  | .smov f => some (0x22, f)
  | .sli f => some (0x23, f)
  | .slui f => some (0x24, f)
  | .sadr f => some (0x25, f)
  | .sext f => some (0x26, f)
  | .sbfx f => some (0x27, f)
  | .sbfi f => some (0x28, f)
  | .bra f => some (0x30, f)
  | .bc f => some (0x31, f)
  | .bmz f => some (0x32, f)
  | .bmnz f => some (0x33, f)
  | .jmp f => some (0x34, f)
  | .call f => some (0x35, f)
  | .callr f => some (0x36, f)
  | .ret f => some (0x37, f)
  | .loopBr f => some (0x38, f)
  | .mand f => some (0x40, f)
  | .mor f => some (0x41, f)
  | .mxor f => some (0x42, f)
  | .mandn f => some (0x43, f)
  | .mnot f => some (0x44, f)
  | .mset f => some (0x45, f)
  | .mget f => some (0x46, f)
  | .mpop f => some (0x47, f)
  | .mffs f => some (0x48, f)
  | .mlane f => some (0x49, f)
  | .vaddInt f => some (0x50, f)
  | .vsubInt f => some (0x51, f)
  | .vmulInt f => some (0x52, f)
  | .vmulh f => some (0x53, f)
  | .vmad f => some (0x54, f)
  | .vminInt f => some (0x55, f)
  | .vmaxInt f => some (0x56, f)
  | .vabsInt f => some (0x57, f)
  | .vand f => some (0x58, f)
  | .vor f => some (0x59, f)
  | .vxor f => some (0x5A, f)
  | .vnot f => some (0x5B, f)
  | .vshl f => some (0x5C, f)
  | .vshr f => some (0x5D, f)
  | .vsar f => some (0x5E, f)
  | .vpopc f => some (0x5F, f)
  | .vaddF f => some (0x60, f)
  | .vsubF f => some (0x61, f)
  | .vmulF f => some (0x62, f)
  | .vfma f => some (0x63, f)
  | .vfms f => some (0x64, f)
  | .vfnma f => some (0x65, f)
  | .vminF f => some (0x66, f)
  | .vmaxF f => some (0x67, f)
  | .vabsF f => some (0x68, f)
  | .vneg f => some (0x69, f)
  | .vdot2 f => some (0x6A, f)
  | .vred f => some (0x6B, f)
  | .vclamp f => some (0x6C, f)
  | .vrnd f => some (0x6D, f)
  | .vscale f => some (0x6E, f)
  | .vcmp f => some (0x70, f)
  | .vsel f => some (0x71, f)
  | .vmov f => some (0x72, f)
  | .vbcast f => some (0x73, f)
  | .vext f => some (0x74, f)
  | .vperm f => some (0x75, f)
  | .vrot f => some (0x76, f)
  | .vcompress f => some (0x77, f)
  | .vexpand f => some (0x78, f)
  | .vscan f => some (0x79, f)
  | .vclz f => some (0x7A, f)
  | .vcvt f => some (0x80, f)
  | .vcvto f => some (0x81, f)
  | .vpack f => some (0x82, f)
  | .vunpack f => some (0x83, f)
  | .vrcp f => some (0x84, f)
  | .vrsq f => some (0x85, f)
  | .vsqrt f => some (0x86, f)
  | .vexp2 f => some (0x87, f)
  | .vlog2 f => some (0x88, f)
  | .vsin f => some (0x89, f)
  | .vcos f => some (0x8A, f)
  | .vtanh f => some (0x8B, f)
  | .vsigm f => some (0x8C, f)
  | .ld f => some (0x90, f)
  | .st f => some (0x91, f)
  | .sld f => some (0x92, f)
  | .sst f => some (0x93, f)
  | .ldb f => some (0x94, f)
  | .vspill f => some (0x95, f)
  | .vfill f => some (0x96, f)
  | .push f => some (0x97, f)
  | .pop f => some (0x98, f)
  | .fence f => some (0x99, f)
  | .atom f => some (0xA0, f)
  | .satom f => some (0xA1, f)
  | .acas f => some (0xA2, f)
  | .sacas f => some (0xA3, f)
  | .bkmode f => some (0xA4, f)
  | .bkbcast f => some (0xA5, f)
  | .bkmac f => some (0xA6, f)
  | .bkget f => some (0xA7, f)
  | .bkclr f => some (0xA8, f)
  | .bkscan f => some (0xA9, f)
  | .cpy f => some (0xB0, f)
  | .cpyg f => some (0xB1, f)
  | .cpys f => some (0xB2, f)
  | .cpyt f => some (0xB3, f)
  | .cpyd f => some (0xB4, f)
  | .gatom f => some (0xB5, f)
  | .tclaim f => some (0xB6, f)
  | .trel f => some (0xB7, f)
  | .tstat f => some (0xB8, f)
  | .mloop f => some (0xC0, f)
  | .mstep f => some (0xC1, f)
  | .azero f => some (0xC2, f)
  | .amov f => some (0xC3, f)
  | .ast f => some (0xC4, f)
  | .bpass f => some (0xC5, f)
  | .fnew f => some (0xD0, f)
  | .fset f => some (0xD1, f)
  | .fget f => some (0xD2, f)
  | .fwait f => some (0xD3, f)
  | .ftest f => some (0xD4, f)
  | .fmov f => some (0xD5, f)
  | .fcancel f => some (0xD6, f)
  | .bar f => some (0xD7, f)
  | .arrive f => some (0xD8, f)
  | .awaitBar f => some (0xD9, f)
  | .mon f => some (0xDA, f)
  | .mwait f => some (0xDB, f)
  | .rinit f => some (0xDC, f)
  | .rtake f => some (0xDD, f)
  | .spawn f => some (0xE0, f)
  | .invoke f => some (0xE1, f)
  | .qnew f => some (0xE2, f)
  | .qdel f => some (0xE3, f)
  | .rdone f => some (0xE4, f)
  | _ => none

/-- The fields a short form stands for: guard m15, fn 0, no hints (R69). -/
def shortFields (mod : Ty) (d a b c : Operand) : Fields := { mod := mod, d := d, a := a, b := b, c := c }
/-- A 16-bit branch offset as the b and c fields of the L form (R70, R81). -/
def offFields (d : Operand) (off : BitVec 16) : Fields :=
  { d := d, b := operandOf (BitVec.ofNat 8 off.toNat), c := operandOf (BitVec.ofNat 8 (off.toNat / 256)) }

/-- The short opcode and three bytes d, a, b of a short form (R69). -/
def Instr.short? : Instr → Option (Nat × Byte × Byte × Byte)
  | .nopS => some (0x00, 0, 0, 0)
  | .vaddF32S d a b => some (0x01, Operand.byte d, Operand.byte a, Operand.byte b)
  | .vmulF32S d a b => some (0x02, Operand.byte d, Operand.byte a, Operand.byte b)
  | .vfmaF32S d a b => some (0x03, Operand.byte d, Operand.byte a, Operand.byte b)
  | .vmovS d a => some (0x04, Operand.byte d, Operand.byte a, 0)
  | .smovS d a => some (0x05, Operand.byte d, Operand.byte a, 0)
  | .saddI64S d a b => some (0x06, Operand.byte d, Operand.byte a, Operand.byte b)
  | .saddI64ImmS d a imm => some (0x07, Operand.byte d, Operand.byte a, imm)
  | .vaddI32S d a b => some (0x08, Operand.byte d, Operand.byte a, Operand.byte b)
  | .vandS d a b => some (0x09, Operand.byte d, Operand.byte a, Operand.byte b)
  | .ldI32S d a => some (0x0A, Operand.byte d, Operand.byte a, 0)
  | .stI32S d a => some (0x0B, Operand.byte d, Operand.byte a, 0)
  | .braS off => some (0x0C, 0, BitVec.ofNat 8 off.toNat, BitVec.ofNat 8 (off.toNat / 256))
  | .loopS d off => some (0x0D, Operand.byte d, BitVec.ofNat 8 off.toNat, BitVec.ofNat 8 (off.toNat / 256))
  | .mandS d a b => some (0x0E, Operand.byte d, Operand.byte a, Operand.byte b)
  | .doneS => some (0x0F, 0, 0, 0)
  | _ => none

/-- The L form a short form stands for (R70); sop 0x07, whose b is an 8-bit literal, is given with b zero. -/
def Instr.expand? : Instr → Option (Nat × Fields)
  | .nopS => some (0x00, shortFields .i8 .zero .zero .zero .zero)
  | .vaddF32S d a b => some (0x60, shortFields .f32 d a b .zero)
  | .vmulF32S d a b => some (0x62, shortFields .f32 d a b .zero)
  | .vfmaF32S d a b => some (0x63, shortFields .f32 d a b d)
  | .vmovS d a => some (0x72, shortFields .i32 d a .zero .zero)
  | .smovS d a => some (0x22, shortFields .i64 d a .zero .zero)
  | .saddI64S d a b => some (0x10, shortFields .i64 d a b .zero)
  | .saddI64ImmS d a _ => some (0x10, shortFields .i64 d a .zero .zero)
  | .vaddI32S d a b => some (0x50, shortFields .i32 d a b .zero)
  | .vandS d a b => some (0x58, shortFields .i32 d a b .zero)
  | .ldI32S d a => some (0x90, shortFields .i32 d a .zero .zero)
  | .stI32S d a => some (0x91, shortFields .i32 d a .zero .zero)
  | .braS off => some (0x30, offFields .zero off)
  | .loopS d off => some (0x38, offFields d off)
  | .mandS d a b => some (0x40, shortFields .i8 d a b .zero)
  | .doneS => some (0x01, shortFields .i8 .zero .zero .zero .zero)
  | _ => none

/-- sop 0x03 excludes ps as its destination (R70): the destination is read as the addend. -/
def Instr.shortRule : Instr → Bool
  | .vfmaF32S d _ _ => match d with | .v _ => true | _ => false
  | _ => true

/-- The event's names of parts are in range (R2, R348). -/
def Instr.eventRule : Instr → Bool
  | .kick fn _ _ _ => decide (fn < 17)
  | .uploadCommit fn _ => decide (fn < 17)
  | .uploadCopyValidate fn => decide (fn < 17)
  | .vfslotWrite fn v _ => decide (fn < 17) && decide (v < 16)
  | .registerWrite _ _ _ => true
  | .hostBar2Access fn _ _ => decide (fn < 17)
  | .hostCxlMemAccess range _ _ => decide (range < 2)
  | .successorStart => true
  | .replayComplete => true
  | .binInsert m => decide (m < 4)
  | .binTimerExpiry => true
  | .gnoutRecordArrival _ _ _ => true
  | .queueToBin => true
  | .queueSwapOut => true
  | .queueSwapIn => true
  | .invokeSend => true
  | .invokeAnswer _ => true
  | .invokeResend => true
  | .invokeGiveUp => true
  | .retireWrite _ => true
  | .retireAck data => decide (data.source < 1024)
  | .retireWriteResend => true
  | .retainedEntryExpiry => true
  | .dispatchOffer m => decide (m < 4)
  | .anchorBlock m => decide (m < 4)
  | .stealRequest d => decide (d < 8)
  | .stealAnswer d => decide (d < 8)
  | .gridGate => true
  | .wakeWarmupEnd => true
  | .taskStartAction _ d => decide (d < 8)
  | .chainStallBreak p => decide (p < 12288)
  | .yieldExpiry => true
  | .repoll => true
  | .wheelStop c => decide (c < 16)
  | .requestReservation => true
  | .loopShed cid => decide (cid < 49152)
  | .wsupWrite c _ => decide (c < 16)
  | .mcadwWrite g _ => decide (g < 384)
  | .activityWindowEnd => true
  | .classChangeEffect => true
  | .resultLands cid _ => decide (cid < 49152)
  | .homeStore cid => decide (cid < 49152)
  | .storeAck cid => decide (cid < 49152)
  | .sfuAccept p => decide (p < 12288)
  | .linkHandoff cid => decide (cid < 49152)
  | .loopStep cid => decide (cid < 49152)
  | .loopComplete cid => decide (cid < 49152)
  | .leatBeatIssue g => decide (g < 384)
  | .leatBeatComplete g _ _ _ => decide (g < 384)
  | .pageWalkComplete d fn _ _ => decide (d < 8) && decide (fn < 17)
  | .requestTimeout g _ _ => decide (g < 384)
  | .dieCacheEvict d _ => decide (d < 8)
  | .bankOpDone g _ => decide (g < 384)
  | .parkWake _ => true
  | .watchWakeArrival cid _ => decide (cid < 49152)
  | .mwaitTimeout => true
  | .rangeSteal => true
  | .rdoneFlush => true
  | .rdoneFlushDone => true
  | .blockRetire => true
  | .taskComplete => true
  | .takeTrap cid => decide (cid < 49152)
  | .memoryErrorRetry site _ => (match site with | .sram u _ _ => decide (u < 396) | _ => true)
  | .sramLineRemap u _ _ => decide (u < 396)
  | .preemptRequest _ => true
  | .drainTimeout => true
  | .blockFlushRestart _ => true
  | .blockSave _ => true
  | .blockRestore _ => true
  | .sensorUpdate g _ => decide (g < 384)
  | .migrationCapture g => decide (g < 384)
  | .migrationHoldLift => true
  | .migrationCaptureTimeout => true
  | .migrationMoveDone => true
  | .dsplitWrite _ => true
  | .scrwWrite f _ => decide (f < 17)
  | .itctlCommit _ => true
  | .itableSwitch => true
  | .tlbinvWrite _ => true
  | .pclampLimitWrite _ => true
  | .pclampClampClear _ => true
  | .powerClamp _ => true
  | .mgmtDoeRequest _ => true
  | .promorvoHostWrite _ _ => true
  | .getVersion => true
  | .getCapabilities => true
  | .negotiateAlgorithms => true
  | .getDigests => true
  | .getCertificate _ => true
  | .challenge _ => true
  | .getMeasurements _ => true
  | .spdmUnsupportedRequest _ => true
  | .partFailure part => match part with
    | .cdie d => decide (d < 8)
    | .link a b => decide (a < 8) && decide (b < 4)
    | .ualPort p => decide (p < 12)
    | .journal m => decide (m < 4)
    | .reduction => true
    | .stack i => decide (i < 8)
  | .warmReset => true
  | .coldReset _ _ => true
  | .vfFlr v => decide (v < 16)
  | .fabricMemoryRequest _ _ _ => true
  | .icacheLineFill g fn _ => decide (g < 384) && decide (fn < 17)
  | .dieGate _ => true
  | .migrationHoldRetake => true
  | _ => true

/-- Well-formedness of an instruction. -/
def Instr.wf (i : Instr) : Bool :=
  match i.long? with
  | some (op, f) => legal op f
  | none =>
    match i.expand? with
    | some (op, f) => legal op f && i.shortRule
    | none => i.eventRule

end Sys2Proof
end

