-- ==== Sys2Proof/Decode.lean ====
section
/-! DEFINITION. The decoder, total on any bytes and rejecting by name, and the encoder, both from the encoding tables of
R67 to R84. -/
namespace Sys2Proof
open Sys2Proof.Machine

/-- Why a pattern is no instruction (R84). -/
inductive DecodeError
  /-- bits [1:0] = 11 -/
  | reservedForm
  /-- S form with sop 0x10 to 0x3F -/
  | shortOpcode
  /-- S form that breaks a byte rule of R70 -/
  | shortRule
  /-- op not assigned in R82 -/
  | opcode
  /-- bits [57:56] not 0 -/
  | reservedBits
  /-- mod 0xE or 0xF -/
  | reservedMod
  /-- a rule of the instruction's entry -/
  | entryRule
  /-- fewer bytes than the form's length -/
  | truncated
  deriving DecidableEq, Repr

/-- What decoding answers: an instruction, or the name of the rule the pattern breaks. -/
inductive Decoded
  | ok (i : Instr) | error (e : DecodeError)
  deriving DecidableEq, Repr

/-- The instruction at a major opcode (R82). -/
def longOf (op : Nat) (f : Fields) : Option Instr :=
  match op with
  | 0x00 => some (.nop f)
  | 0x01 => some (.doneRow f)
  | 0x02 => some (.trap f)
  | 0x03 => some (.tret f)
  | 0x04 => some (.brk f)
  | 0x05 => some (.sget f)
  | 0x06 => some (.sset f)
  | 0x07 => some (.yield f)
  | 0x08 => some (.perf f)
  | 0x09 => some (.icinv f)
  | 0x0A => some (.mpoint f)
  | 0x10 => some (.sadd f)
  | 0x11 => some (.ssub f)
  | 0x12 => some (.smul f)
  | 0x13 => some (.smulh f)
  | 0x14 => some (.sdiv f)
  | 0x15 => some (.srem f)
  | 0x16 => some (.sand f)
  | 0x17 => some (.sor f)
  | 0x18 => some (.sxor f)
  | 0x19 => some (.sshl f)
  | 0x1A => some (.sshr f)
  | 0x1B => some (.ssar f)
  | 0x1C => some (.smin f)
  | 0x1D => some (.smax f)
  | 0x1E => some (.sclz f)
  | 0x1F => some (.spopc f)
  | 0x20 => some (.scmp f)
  | 0x21 => some (.ssel f)
  | 0x22 => some (.smov f)
  | 0x23 => some (.sli f)
  | 0x24 => some (.slui f)
  | 0x25 => some (.sadr f)
  | 0x26 => some (.sext f)
  | 0x27 => some (.sbfx f)
  | 0x28 => some (.sbfi f)
  | 0x30 => some (.bra f)
  | 0x31 => some (.bc f)
  | 0x32 => some (.bmz f)
  | 0x33 => some (.bmnz f)
  | 0x34 => some (.jmp f)
  | 0x35 => some (.call f)
  | 0x36 => some (.callr f)
  | 0x37 => some (.ret f)
  | 0x38 => some (.loopBr f)
  | 0x40 => some (.mand f)
  | 0x41 => some (.mor f)
  | 0x42 => some (.mxor f)
  | 0x43 => some (.mandn f)
  | 0x44 => some (.mnot f)
  | 0x45 => some (.mset f)
  | 0x46 => some (.mget f)
  | 0x47 => some (.mpop f)
  | 0x48 => some (.mffs f)
  | 0x49 => some (.mlane f)
  | 0x50 => some (.vaddInt f)
  | 0x51 => some (.vsubInt f)
  | 0x52 => some (.vmulInt f)
  | 0x53 => some (.vmulh f)
  | 0x54 => some (.vmad f)
  | 0x55 => some (.vminInt f)
  | 0x56 => some (.vmaxInt f)
  | 0x57 => some (.vabsInt f)
  | 0x58 => some (.vand f)
  | 0x59 => some (.vor f)
  | 0x5A => some (.vxor f)
  | 0x5B => some (.vnot f)
  | 0x5C => some (.vshl f)
  | 0x5D => some (.vshr f)
  | 0x5E => some (.vsar f)
  | 0x5F => some (.vpopc f)
  | 0x60 => some (.vaddF f)
  | 0x61 => some (.vsubF f)
  | 0x62 => some (.vmulF f)
  | 0x63 => some (.vfma f)
  | 0x64 => some (.vfms f)
  | 0x65 => some (.vfnma f)
  | 0x66 => some (.vminF f)
  | 0x67 => some (.vmaxF f)
  | 0x68 => some (.vabsF f)
  | 0x69 => some (.vneg f)
  | 0x6A => some (.vdot2 f)
  | 0x6B => some (.vred f)
  | 0x6C => some (.vclamp f)
  | 0x6D => some (.vrnd f)
  | 0x6E => some (.vscale f)
  | 0x70 => some (.vcmp f)
  | 0x71 => some (.vsel f)
  | 0x72 => some (.vmov f)
  | 0x73 => some (.vbcast f)
  | 0x74 => some (.vext f)
  | 0x75 => some (.vperm f)
  | 0x76 => some (.vrot f)
  | 0x77 => some (.vcompress f)
  | 0x78 => some (.vexpand f)
  | 0x79 => some (.vscan f)
  | 0x7A => some (.vclz f)
  | 0x80 => some (.vcvt f)
  | 0x81 => some (.vcvto f)
  | 0x82 => some (.vpack f)
  | 0x83 => some (.vunpack f)
  | 0x84 => some (.vrcp f)
  | 0x85 => some (.vrsq f)
  | 0x86 => some (.vsqrt f)
  | 0x87 => some (.vexp2 f)
  | 0x88 => some (.vlog2 f)
  | 0x89 => some (.vsin f)
  | 0x8A => some (.vcos f)
  | 0x8B => some (.vtanh f)
  | 0x8C => some (.vsigm f)
  | 0x90 => some (.ld f)
  | 0x91 => some (.st f)
  | 0x92 => some (.sld f)
  | 0x93 => some (.sst f)
  | 0x94 => some (.ldb f)
  | 0x95 => some (.vspill f)
  | 0x96 => some (.vfill f)
  | 0x97 => some (.push f)
  | 0x98 => some (.pop f)
  | 0x99 => some (.fence f)
  | 0xA0 => some (.atom f)
  | 0xA1 => some (.satom f)
  | 0xA2 => some (.acas f)
  | 0xA3 => some (.sacas f)
  | 0xA4 => some (.bkmode f)
  | 0xA5 => some (.bkbcast f)
  | 0xA6 => some (.bkmac f)
  | 0xA7 => some (.bkget f)
  | 0xA8 => some (.bkclr f)
  | 0xA9 => some (.bkscan f)
  | 0xB0 => some (.cpy f)
  | 0xB1 => some (.cpyg f)
  | 0xB2 => some (.cpys f)
  | 0xB3 => some (.cpyt f)
  | 0xB4 => some (.cpyd f)
  | 0xB5 => some (.gatom f)
  | 0xB6 => some (.tclaim f)
  | 0xB7 => some (.trel f)
  | 0xB8 => some (.tstat f)
  | 0xC0 => some (.mloop f)
  | 0xC1 => some (.mstep f)
  | 0xC2 => some (.azero f)
  | 0xC3 => some (.amov f)
  | 0xC4 => some (.ast f)
  | 0xC5 => some (.bpass f)
  | 0xD0 => some (.fnew f)
  | 0xD1 => some (.fset f)
  | 0xD2 => some (.fget f)
  | 0xD3 => some (.fwait f)
  | 0xD4 => some (.ftest f)
  | 0xD5 => some (.fmov f)
  | 0xD6 => some (.fcancel f)
  | 0xD7 => some (.bar f)
  | 0xD8 => some (.arrive f)
  | 0xD9 => some (.awaitBar f)
  | 0xDA => some (.mon f)
  | 0xDB => some (.mwait f)
  | 0xDC => some (.rinit f)
  | 0xDD => some (.rtake f)
  | 0xE0 => some (.spawn f)
  | 0xE1 => some (.invoke f)
  | 0xE2 => some (.qnew f)
  | 0xE3 => some (.qdel f)
  | 0xE4 => some (.rdone f)
  | _ => none

/-- The short form at a short opcode, whose zero bytes must be 0 (R70). -/
def shortOf (sop d a b : Nat) : Option Instr :=
  let o (x : Nat) : Operand := operandOf (BitVec.ofNat 8 x)
  let off := BitVec.ofNat 16 (a + 256 * b)
  match sop with
  | 0x00 => if d = 0 ∧ a = 0 ∧ b = 0 then some .nopS else none
  | 0x01 => some (.vaddF32S (o d) (o a) (o b))
  | 0x02 => some (.vmulF32S (o d) (o a) (o b))
  | 0x03 => some (.vfmaF32S (o d) (o a) (o b))
  | 0x04 => if b = 0 then some (.vmovS (o d) (o a)) else none
  | 0x05 => if b = 0 then some (.smovS (o d) (o a)) else none
  | 0x06 => some (.saddI64S (o d) (o a) (o b))
  | 0x07 => some (.saddI64ImmS (o d) (o a) (BitVec.ofNat 8 b))
  | 0x08 => some (.vaddI32S (o d) (o a) (o b))
  | 0x09 => some (.vandS (o d) (o a) (o b))
  | 0x0A => if b = 0 then some (.ldI32S (o d) (o a)) else none
  | 0x0B => if b = 0 then some (.stI32S (o d) (o a)) else none
  | 0x0C => if d = 0 then some (.braS off) else none
  | 0x0D => some (.loopS (o d) off)
  | 0x0E => some (.mandS (o d) (o a) (o b))
  | 0x0F => if d = 0 ∧ a = 0 ∧ b = 0 then some .doneS else none
  | _ => none

/-- The length in bytes that bits [1:0] give, before any other check (R67). -/
def lengthOf (w : Nat) : Nat := if w % 4 = 1 then 8 else if w % 4 = 2 then 12 else 4

/-- The fields of an L word or of the first 64 bits of an X form (R71); none where mod is reserved. -/
def fieldsOf (w : Nat) (form : Form) : Option Fields :=
  (tyOf (field w 47 4)).map fun m =>
    { form := form, chain := bitAt w 63, capture := bitAt w 62, latch := BitVec.ofNat 3 (field w 59 3), nowb := bitAt w 58
      fn := BitVec.ofNat 5 (field w 51 5), mod := m, ginv := bitAt w 46, guard := BitVec.ofNat 4 (field w 42 4)
      c := operandOf (BitVec.ofNat 8 (field w 34 8)), b := operandOf (BitVec.ofNat 8 (field w 26 8))
      a := operandOf (BitVec.ofNat 8 (field w 18 8)), d := operandOf (BitVec.ofNat 8 (field w 10 8)) }

/-- Decode the value of an instruction's bytes, bits [95:64] being an X form's literal (R67, R68, R84). -/
def decode (w : Nat) : Decoded :=
  if w % 4 = 3 then .error .reservedForm
  else if w % 4 = 0 then
    if 16 ≤ field w 2 6 then .error .shortOpcode
    else match shortOf (field w 2 6) (field w 8 8) (field w 16 8) (field w 24 8) with
      | none => .error .shortRule
      | some i => if i.wf then .ok i else .error .shortRule
  else if (desc (field w 2 8)).isNone then .error .opcode
  else if field w 56 2 ≠ 0 then .error .reservedBits
  else match fieldsOf w (if w % 4 = 1 then .l else .x (BitVec.ofNat 32 (field w 64 32))) with
    | none => .error .reservedMod
    | some f =>
      match longOf (field w 2 8) f with
      | none => .error .opcode
      | some i => if i.wf then .ok i else .error .entryRule

/-- Decode the instruction at the head of a list of bytes, with the bytes that follow it. -/
def decodeBytes (bs : List Byte) : Decoded × List Byte :=
  match bs with
  | [] => (.error .truncated, [])
  | b :: _ =>
    let n := lengthOf b.toNat
    if bs.length < n then (.error .truncated, bs) else (decode (leNat (bs.take n)), bs.drop n)

/-- The 64-bit word of an opcode and its fields (R71). -/
def packFields (op : Nat) (f : Fields) : Nat :=
  (if isX f then 2 else 1) + 4 * (op % 256) + 2 ^ 10 * byteOf f.d + 2 ^ 18 * byteOf f.a + 2 ^ 26 * byteOf f.b
    + 2 ^ 34 * byteOf f.c + 2 ^ 42 * f.guard.toNat + 2 ^ 46 * ofBool f.ginv + 2 ^ 47 * tyCode f.mod + 2 ^ 51 * f.fn.toNat
    + 2 ^ 58 * ofBool f.nowb + 2 ^ 59 * f.latch.toNat + 2 ^ 62 * ofBool f.capture + 2 ^ 63 * ofBool f.chain

/-- The value of a program instruction's bytes; none for an event, which has no encoding. -/
def encode (i : Instr) : Option Nat :=
  match i.long? with
  | some (op, f) => some (packFields op f + 2 ^ 64 * (litOf f).toNat)
  | none =>
    match i.short? with
    | some (sop, d, a, b) => some (4 * sop + 2 ^ 8 * d.toNat + 2 ^ 16 * a.toNat + 2 ^ 24 * b.toNat)
    | none => none

/-- The length in bytes of a program instruction (R67); 0 for an event. -/
def Instr.len (i : Instr) : Nat :=
  match i.long? with
  | some (_, f) => lenOf f
  | none => match i.short? with | some _ => 4 | none => 0

/-- The little-endian bytes of a program instruction (R68). -/
def encodeBytes (i : Instr) : Option (List Byte) := (encode i).map (leBytes i.len)

/-- The instruction this decoder reads from the table's numbering of its bits: w is the little-endian value of the
instruction's bytes, and every bit above nbits is 0. -/
def decodeTableWord (nbits w : Nat) : Option Instr :=
  match (decodeBytes (leBytes 12 (w % 2 ^ nbits))).1 with
  | .ok i => some i
  | .error _ => none

end Sys2Proof
end

