-- ==== Sys2Proof/Config.lean ====
section
/-! DEFINITION. What one part fixes and the manual leaves open: free values with no body, so that no proof can see what they
are, and the implementation's own figures, each named in the assumption log. -/
namespace Sys2Proof.Config

/-- Which of the two bracketing values a faithful SFU result is (R194): free, the same for the same opcode, format, fn and
input. -/
opaque sfuUpper (op fmt fn x : Nat) : Bool
/-- A racing choice the manual leaves open (R309, R317): the n-th one drawn by this machine. -/
opaque freeChoice (n : Nat) : Bool
/-- A byte the manual leaves open, the n-th one drawn (R329: bytes of a failed attempt; R357: memory after a cold reset). -/
opaque freeByte (n : Nat) : BitVec 8
/-- The fused Wheel ceiling of a cluster as the fuse bank holds it (R118). -/
opaque ceilFuse (cluster : Nat) : BitVec 14
/-- The fused Wheel ceiling: at most 16,383 by its width, and never below the floor (R118). -/
def wheelCeil (cluster : Nat) : Nat := max 64 (ceilFuse cluster).toNat
/-- The fused Wheel floor (R2, R118). -/
def wheelFloor : Nat := 64
/-- Spare lines of an SRAM array (R334): 0 to 8 a grid's, 9 and 10 a C-die's, 11 the Pond. -/
opaque spareLines (array : Nat) : Nat
/-- Whether an accelerator id names a device of the pod (R48). -/
opaque inPod (acc : Nat) : Bool
/-- The fused security-version counter of secure boot (R353). -/
opaque rollbackCounter : Nat
/-- Measurement blocks 1 and 2 of R354, as a verifier reads them. -/
opaque measurement (index : Nat) : List (BitVec 8)
/-- The bytes of an SPDM answer that SPDM 1.3 itself lays out (R354): certificate chains, digests and signatures. -/
opaque spdmBytes (request arg : Nat) : List (BitVec 8)

end Sys2Proof.Config
end

