-- ==== Sys2Proof/Machine/Memory.lean ====
section
/-! DEFINITION. A byte memory: the listed cells in strictly rising address order, none of them 0; an unlisted byte reads 0
(assumption 1). Bytes, little-endian words (R9, R68) and ranges. -/
namespace Sys2Proof.Machine

/-- A memory in its one canonical form. -/
abbrev Mem := List Host.Cell

namespace Mem
/-- The byte at an address. -/
def read : Mem → Nat → Byte
  | [], _ => 0#8
  | c :: m, a => if c.1 = a then c.2 else read m a
/-- Put a byte, keeping the canonical form. -/
def put (a : Nat) (b : Byte) : Mem → Mem
  | [] => if b = 0#8 then [] else [(a, b)]
  | c :: m =>
    if a < c.1 then (if b = 0#8 then c :: m else (a, b) :: c :: m)
    else if a = c.1 then (if b = 0#8 then m else (a, b) :: m)
    else c :: put a b m
/-- The canonical form: rising addresses above lo, no zero byte. -/
def wfFrom : Option Nat → Mem → Bool
  | _, [] => true
  | none, c :: m => c.2 != 0#8 && wfFrom (some c.1) m
  | some lo, c :: m => decide (lo < c.1) && c.2 != 0#8 && wfFrom (some c.1) m
/-- The memory is in its canonical form. -/
def wf (m : Mem) : Bool := wfFrom none m
/-- n bytes from an address, lowest first. -/
def readN (m : Mem) (a : Nat) : Nat → List Byte
  | 0 => []
  | n + 1 => m.read a :: readN m (a + 1) n
/-- Store bytes upward from an address. -/
def writeN (m : Mem) (a : Nat) : List Byte → Mem
  | [] => m
  | b :: bs => writeN (put a b m) (a + 1) bs
/-- The little-endian number in n bytes. -/
def num (m : Mem) (a n : Nat) : Nat := leNat (m.readN a n)
/-- Store the low n bytes of a number. -/
def writeNum (m : Mem) (a n x : Nat) : Mem := m.writeN a (leBytes n x)
/-- Every byte of [a, a + n) as 0. -/
def clear (m : Mem) (a n : Nat) : Mem := m.filter fun c => !(decide (a ≤ c.1) && decide (c.1 < a + n))
/-- The cells of [a, a + n), their addresses counted from a. -/
def slice (m : Mem) (a n : Nat) : Mem :=
  (m.filter fun c => decide (a ≤ c.1) && decide (c.1 < a + n)).map fun c => (c.1 - a, c.2)
/-- Lay a sliced range down at a, over whatever lay there. -/
def paste (m : Mem) (a n : Nat) (src : Mem) : Mem :=
  (src.filter fun c => decide (c.1 < n)).foldl (fun m c => put (a + c.1) c.2 m) (m.clear a n)
end Mem

end Sys2Proof.Machine
end

