-- ==== Sys2Proof/Machine/Graph.lean ====
section
/-! DEFINITION. A graph image (R9 to R19), its load checks in the order of R22 with the codes of R21, its patch points
(R19) and the patch table of a kick (R31). -/
namespace Sys2Proof.Machine

/-- A region record (R17). -/
structure Region where
  base : Nat := 0
  extent : Nat := 0
  mode : Nat := 0
  consumer : Nat := 0
  deriving DecidableEq, Repr

def Region.isRead (r : Region) : Bool := bitAt r.mode 0
def Region.isWrite (r : Region) : Bool := bitAt r.mode 1
def Region.isAtomic (r : Region) : Bool := bitAt r.mode 2
def Region.isForward (r : Region) : Bool := bitAt r.mode 3
/-- The byte at VA x lies in the region. -/
def Region.holds (r : Region) (x : Nat) : Bool := decide (r.base ≤ x) && decide (x < r.base + r.extent)

/-- A node's launch header (R11), with its region records and successors. -/
structure Node where
  entry : Nat := 0
  trapv : Nat := 0
  emuv : Nat := 0
  rows : Nat := 1
  bands : Nat := 1
  side : Nat := 0
  slots : Nat := 0
  prio : Nat := 0
  nflags : Nat := 0
  nreg : Nat := 0
  spill : Nat := 0
  ccount : Nat := 1
  timer : Nat := 0
  hint : Nat := 0
  affbase : Nat := 0
  affstride : Nat := 0
  regfirst : Nat := 0
  succfirst : Nat := 0
  succcount : Nat := 0
  predcount : Nat := 0
  seedoff : Nat := 0
  seedcount : Nat := 0
  regions : List Region := []
  succ : List Nat := []
  deriving DecidableEq, Repr

def Node.idempotent (n : Node) : Bool := bitAt n.nflags 0
def Node.handler (n : Node) : Bool := bitAt n.nflags 1
/-- The number of rows of a block. -/
def Node.total (n : Node) : Nat := n.rows * n.bands

namespace Image
/-- Header fields (R10). -/
def ncount (m : Mem) : Nat := m.num 6 2
def isize (m : Mem) : Nat := m.num 8 4
def nodeoff (m : Mem) : Nat := m.num 12 4
def regoff (m : Mem) : Nat := m.num 16 4
def regcount (m : Mem) : Nat := m.num 20 4
def succoff (m : Mem) : Nat := m.num 24 4
def patchoff (m : Mem) : Nat := m.num 28 4
def patchcount (m : Mem) : Nat := m.num 32 2
def gflags (m : Mem) : Nat := m.num 34 2
def msixvec (m : Mem) : Nat := m.num 36 2
def compaddr (m : Mem) : Nat := m.num 40 8

/-- Region-table entry i (R17). -/
def region (m : Mem) (i : Nat) : Region :=
  let o := regoff m + 16 * i
  let w := m.num (o + 12) 4
  { base := m.num o 8, extent := m.num (o + 8) 4, mode := w % 16, consumer := field w 4 12 }
/-- Node i's header (R11). -/
def node (m : Mem) (i : Nat) : Node :=
  let o := nodeoff m + 128 * i
  let nreg := m.num (o + 35) 1
  let regfirst := m.num (o + 64) 4
  let succfirst := m.num (o + 68) 4
  let succcount := m.num (o + 72) 2
  { entry := m.num o 8, trapv := m.num (o + 8) 8, emuv := m.num (o + 16) 8, rows := m.num (o + 24) 2
    bands := m.num (o + 26) 2, side := m.num (o + 28) 4, slots := m.num (o + 32) 1, prio := m.num (o + 33) 1
    nflags := m.num (o + 34) 1, nreg := nreg, spill := m.num (o + 36) 2, ccount := m.num (o + 38) 2
    timer := m.num (o + 40) 4, hint := m.num (o + 44) 4, affbase := m.num (o + 48) 8
    affstride := m.num (o + 56) 8, regfirst := regfirst, succfirst := succfirst, succcount := succcount
    predcount := m.num (o + 74) 2, seedoff := m.num (o + 76) 4, seedcount := m.num (o + 80) 4
    regions := (List.range (min nreg 16)).map fun j => region m (regfirst + j)
    succ := (List.range succcount).map fun j => m.num (succoff m + 2 * (succfirst + j)) 2 }
/-- Every node; an image has at most 4,096 (R10). -/
def nodes (m : Mem) : List Node := (List.range (min (ncount m) 4096)).map (node m)
/-- Patch point j: its offset and its width (R19). -/
def patch (m : Mem) (j : Nat) : Nat × Nat := (m.num (patchoff m + 8 * j) 4, m.num (patchoff m + 8 * j + 4) 1)
/-- Seed record j of a node: its 48 argument bytes (R13). -/
def seedArgs (m : Mem) (n : Node) (j : Nat) : List Byte := m.readN (n.seedoff + 64 * j + 16) 48

/-- A failed check: the offending field's offset, its node, the code (R20, R21). -/
structure Fail where
  off : Nat
  node : Nat := 0xFFFF
  code : Nat
  deriving DecidableEq, Repr

/-- A check of the field at off. -/
def need (ok : Bool) (off code : Nat) (node : Nat := 0xFFFF) : List Fail := if ok then [] else [⟨off, node, code⟩]
/-- A device VA field: bits [63:52] zero and, for code addresses, 4-byte aligned (R11). -/
def vaOk (x : Nat) : Bool := decide (x < 2 ^ 52)
/-- A table at off of so many bytes lies within the image and on a multiple of 64 (R9): codes 3 and 4. -/
def tableOk (m : Mem) (at_ off bytes : Nat) : List Fail :=
  need (decide (off + bytes ≤ isize m)) at_ 3 ++ need (off % 64 == 0) at_ 4

/-- The header's checks (R10). -/
def headerFails (m : Mem) : List Fail :=
  need (m.num 0 4 == 0x48474C42) 0 1 ++ need (m.num 4 2 == 1) 4 2
    ++ need (decide (1 ≤ ncount m) && decide (ncount m ≤ 4096)) 6 5
    ++ need (isize m % 64 == 0 && decide (isize m ≤ 2 ^ 22) && decide (64 ≤ isize m)) 8 3
    ++ tableOk m 12 (nodeoff m) (128 * ncount m) ++ tableOk m 16 (regoff m) (16 * regcount m)
    ++ need (decide (regcount m ≤ 65536)) 20 5 ++ tableOk m 24 (succoff m) 0
    ++ tableOk m 28 (patchoff m) (8 * patchcount m) ++ need (patchcount m != 0 || patchoff m == 0) 28 6
    ++ need (decide (patchcount m ≤ 1024)) 32 5 ++ need (decide (gflags m < 2)) 34 6
    ++ need (bitAt (gflags m) 0 || msixvec m == 0) 36 6 ++ need (m.num 38 2 == 0) 38 6
    ++ need (m.num 48 16 == 0) 48 6

/-- The checks of node i's header (R11, R13). -/
def nodeFails (m : Mem) (i : Nat) : List Fail :=
  let n := node m i
  let o := nodeoff m + 128 * i
  let c (ok : Bool) (k code : Nat) := need ok (o + k) code i
  c (n.entry != 0 && n.entry % 4 == 0 && vaOk n.entry) 0 0xB ++ c (n.trapv % 4 == 0 && vaOk n.trapv) 8 0xB
    ++ c (n.emuv % 4 == 0 && vaOk n.emuv) 16 0xB
    ++ c (decide (1 ≤ n.rows) && decide (n.rows ≤ 256)) 24 7
    ++ c (decide (1 ≤ n.bands) && decide (n.bands ≤ 256) && decide (n.rows * n.bands ≤ 256)) 26 7
    ++ c (n.side % 64 == 0 && decide (n.side + 64 * (n.ccount + 1) + n.spill * min n.total 128 ≤ 2097152)) 28 8
    ++ c (decide (n.slots ≤ 32)) 32 8 ++ c (decide (n.prio ≤ 11)) 33 9 ++ c (decide (n.nflags < 4)) 34 6
    ++ c (decide (n.nreg ≤ 16) && decide (n.regfirst + n.nreg ≤ regcount m)) 35 0xC
    ++ c (n.spill % 64 == 0 && decide (n.spill ≤ 16384)) 36 8
    ++ c (decide (1 ≤ n.ccount) && decide (n.ccount ≤ 256)) 38 0xA ++ c (vaOk n.affbase) 48 0x10
    ++ c (n.succcount != 0 || n.succfirst == 0) 68 6
    ++ c (n.succcount == 0 || decide (succoff m + 2 * (n.succfirst + n.succcount) ≤ isize m)) 72 3
    ++ c (n.seedoff % 64 == 0) 76 4 ++ c (n.seedcount != 0 || n.seedoff == 0) 76 6
    ++ c (decide (n.seedoff + 64 * n.seedcount ≤ isize m)) 80 3 ++ c (decide (n.seedcount ≤ 1048576)) 80 5
    ++ c (m.num (o + 84) 44 == 0) 84 6

/-- The consumers that node ns give region-table entry i: nothing when no node uses it. -/
def regionOwners (ns : List Node) (i : Nat) : List Node :=
  ns.filter fun n => decide (n.regfirst ≤ i) && decide (i < n.regfirst + n.nreg)
/-- The checks of region-table entry i (R17). -/
def regionFails (m : Mem) (ns : List Node) (i : Nat) : List Fail :=
  let r := region m i
  let o := regoff m + 16 * i
  need (vaOk r.base && decide (r.base + r.extent ≤ 2 ^ 52)) o 0xC ++ need (r.extent != 0) (o + 8) 0xC
    ++ need (r.mode % 8 != 0 && (!r.isForward || (r.isWrite && !r.isAtomic)) && (r.isForward || r.consumer == 0)
        && (!r.isForward || (regionOwners ns i).all fun n => n.succ.contains r.consumer)) (o + 12) 0xC
    ++ need (m.num (o + 14) 2 == 0) (o + 14) 6
/-- The envelopes of the first k seed records of a node are zero (R13); they lie outside the node table (R20). -/
def seedFails (m : Mem) (n : Node) (k : Nat) : List Fail :=
  (List.range (min n.seedcount k)).flatMap fun j =>
    need (m.num (n.seedoff + 64 * j) 16 == 0) (n.seedoff + 64 * j) 0xE

/-- The patchable fields of R19: offset and length. -/
def patchable (m : Mem) (ns : List Node) : List (Nat × Nat) :=
  (40, 8) :: ((List.range ns.length).flatMap fun i =>
      let o := nodeoff m + 128 * i
      [(o, 8), (o + 8, 8), (o + 16, 8), (o + 40, 4), (o + 44, 4), (o + 48, 8), (o + 56, 8)])
    ++ ((List.range (min (regcount m) 65536)).flatMap fun i => [(regoff m + 16 * i, 8), (regoff m + 16 * i + 8, 4)])
    ++ (ns.flatMap fun n => (List.range (min n.seedcount 1048576)).map fun j => (n.seedoff + 64 * j + 16, 48))
/-- The checks of the first k patch points (R19), each at its own field: the offset, the width, the reserved bytes (code 6, as for
every reserved field: log entry 32). Of two points that overlap the later entry of the list fails: the rules do not say which (log entry 32). -/
def patchFails (m : Mem) (ns : List Node) (k : Nat) : List Fail :=
  let ps := (List.range (min (patchcount m) k)).map (patch m)
  let fields := patchable m ns
  (List.range ps.length).flatMap fun j =>
    let (o, w) := ps.getD j (0, 0)
    let e := patchoff m + 8 * j
    let wide := [1, 2, 4, 8].contains w
    need (!wide || (o % w == 0 && (fields.any fun f => decide (f.1 ≤ o) && decide (o + w ≤ f.1 + f.2))
      && ((ps.take j).all fun p => decide (p.1 + p.2 ≤ o) || decide (o + w ≤ p.1)))) e 0xF
      ++ need wide (e + 4) 0xF ++ need (m.num (e + 5) 3 == 0) (e + 5) 6

/-- Nodes reachable from the given ones by successor edges, within fuel rounds. -/
def reach (ns : List Node) : Nat → List Nat → List Nat
  | 0, seen => seen
  | k + 1, seen =>
    let nxt := (seen.flatMap fun i => (ns.getD i {}).succ).eraseDups
    reach ns k (seen ++ nxt.filter fun j => !seen.contains j)
/-- Node i lies on a cycle. -/
def onCycle (ns : List Node) (i : Nat) : Bool := (reach ns ns.length (ns.getD i {}).succ.eraseDups).contains i
/-- The dependence checks 0x000D, node by node (R12, R22); the order of those of one node is the model's choice (log entry 93). -/
def dependFails (m : Mem) (ns : List Node) : List Fail :=
  (List.range ns.length).flatMap fun i =>
    let n := ns.getD i {}
    let o := nodeoff m + 128 * i
    let isHandler (j : Nat) := (ns.getD j {}).handler
    let entries := (List.range n.succ.length).flatMap fun j =>
      let t := n.succ.getD j 0
      need (decide (t < ns.length) && !(n.succ.take j).contains t && !isHandler t && !n.handler)
        (succoff m + 2 * (n.succfirst + j)) 0xD
    entries
      ++ need (n.predcount == (ns.filter fun x => x.succ.contains i).length && !(n.handler && n.predcount != 0)
          && !onCycle ns i) (o + 74) 0xD i
      ++ need (!(n.handler && n.seedcount != 0)) (o + 80) 0xD i
      ++ need (!(n.handler && n.affstride != 0)) (o + 56) 0xD i

/-- The first failure by byte offset (R22); among checks of one field the first listed, which the lists above keep in increasing order
of their codes: the model's choice (log entry 87). -/
def first (fs : List Fail) : Option Fail :=
  fs.foldl (fun acc f => match acc with | none => some f | some g => if f.off < g.off then some f else acc) none
/-- Every check but those of 0x000D on the tables, over their first entries: so many nodes, regions, seed records and patch points. -/
def tableFails (m : Mem) (nodes_ regions_ seeds points : Nat) : List Fail :=
  let ns := nodes m
  ((List.range (min ns.length nodes_)).flatMap (nodeFails m)) ++ ((List.range (min (regcount m) regions_)).flatMap (regionFails m ns))
    ++ (ns.flatMap fun n => seedFails m n seeds) ++ patchFails m ns points
/-- The load checks of R21, in the order of R22: none when the image may be kicked. Where a check of the header fails, only table
entries that start within its 64 bytes can hold a field before the one that failed: a table at offset 0 (R9). -/
def check (m : Mem) : Option Fail :=
  match first (headerFails m) with
  | some f =>
    let early (off n size : Nat) : Nat := if off < 64 then n / size else 0
    first (f :: tableFails m (early (nodeoff m) 128 128) (early (regoff m) 64 16) 1 (early (patchoff m) 64 8))
  | none =>
    match first (tableFails m 4096 65536 1048576 1024) with
    | some f => some f
    | none => (dependFails m (nodes m)).head?

/-- What applying a patch table gives: the patched copy, or the status of R33 that refuses the kick. -/
def applyEntries (m : Mem) (points : List (Nat × Nat)) (tab : List Byte) : Nat → Nat → Option Mem → Option Mem
  | 0, _, acc => acc
  | k + 1, j, acc =>
    let e := (tab.drop (16 + 16 * j)).take 16
    let off := leNat (e.take 4)
    let w := leNat ((e.drop 4).take 1)
    let value := leNat (e.drop 8)
    let ok := points.contains (off, w) && leNat ((e.drop 5).take 3) == 0 && decide (value < 2 ^ (8 * w))
    applyEntries m points tab k (j + 1) (if ok then acc.map fun x => x.writeNum off w value else none)
/-- The patch table's bytes applied in table order (R31); none is status 0x03. Reserved bytes of its header that are not 0 give that status too
(log entry 107). -/
def applyPatches (m : Mem) (tab : List Byte) : Option Mem :=
  let count := leNat (tab.take 2)
  if count > 1024 ∨ leNat ((tab.drop 2).take 14) ≠ 0 then none
  else applyEntries m ((List.range (patchcount m)).map (patch m)) tab count 0 (some m)
end Image

end Sys2Proof.Machine
end

