-- ==== Sys2Proof/Machine/State.lean ====
section
/-! DEFINITION. The state of the part as plain data. What the part has many of is a sparse table (Tbl): an absent entry is
at its reset value. Numbers: a context slot cid = 4p + slot plane, a physical row p = 32g + row, a grid g = 24c + physical
position, a cluster c = 2d + k, a C-die d, an M-die m, a PCIe function f (0 the PF, 1 + v the VF v). -/
namespace Sys2Proof.Machine

/-! ### Row contexts -/

/-- A scalar register's mark (R281); none is no entry. A failed mark keeps what a read of it reports (R282). -/
inductive Mark
  | pending (h : Word32)
  | failed (h : Word32) (cause : Nat) (addr : Word64)
  deriving DecidableEq, Repr

/-- A trap found and what its registers are to hold (R326, R327). -/
structure Trap where
  cause : Nat := 0
  pc : Word64 := 0
  mask : Word32 := 0
  /-- of cause 0x01: the guard and its inversion as encoded, whose lanes are taken at entry (R86, R326) -/
  ill : Option (Nat × Bool) := none
  addr : Word64 := 0
  fut : Word64 := 0
  op : Word64 := 0
  lit : Word32 := 0
  d : Byte := 0
  a : Byte := 0
  b : Byte := 0
  c : Byte := 0
  deriving DecidableEq, Repr

/-- A register write that lands with a result (R106). -/
inductive RegWrite
  | v (n : Nat) (val : Lanes) (mask : Word32)
  | s (n : Nat) (val : Word64)
  | m (n : Nat) (val : Word32)
  | latch (n : Nat) (val : Lanes)
  | acc (n : Nat) (val : Lanes) (mask : Word32)
  deriving DecidableEq, Repr

/-- A result in flight: when it lands, what it writes, the flags it ORs in (R132), the buckets it returns (R115), the
poison it leaves (R325). -/
structure InFlight where
  id : Nat
  due : Nat
  writes : List RegWrite := []
  flags : BitVec 5 := 0
  buckets : Nat := 0
  poison : Option Word64 := none
  /-- of a load or an atomic: its first address, and the lines it read: unit, line of array 0 (R325, R334) -/
  loadAddr : Option Word64 := none
  lines : List (Nat × Nat) := []
  /-- an instruction whose entry can set a flag (R132) -/
  canFlag : Bool := false
  /-- a queued special function: not yet accepted by the pipe (R196) -/
  queued : Bool := false
  deriving DecidableEq, Repr

/-- The memories a local address reaches (R198): one grid's side memory or one C-die's scratchpad. -/
inductive Space
  | side (g : Nat) | scratch (d : Nat)
  deriving DecidableEq, Repr

/-- A store of the row on its way (R198, R206): the bytes it has still to write at home, the cycle from which R198 counts
their delays, the cycle its last byte is due, and whether all of it is home. -/
structure Store where
  bytes : List (Space × Nat × Byte)
  left : Nat := 0
  due : Nat
  home : Bool := false
  /-- an atomic: it is home at once, and acknowledged when its old value lands (R198) -/
  atomic : Bool := false
  deriving DecidableEq, Repr

/-- A bucket request (R114): its price and cycle, and whether it has become a reservation (R116). -/
structure Request where
  price : Nat
  cycle : Nat
  reserved : Bool := false
  deriving DecidableEq, Repr

/-- A loop or step in the dot sequencer (R264 to R269, R271). -/
structure Loop where
  fmt : Ty
  /-- the loop word; of a step, the same fields with ksteps 1 and groups 1 -/
  word : Word64
  first : Nat
  groups : Nat
  ksteps : Nat
  /-- column group of a step (R271), 0 for a loop -/
  grp : Nat := 0
  top : Bool
  k : Nat := 0
  n : Nat := 0
  issued : Nat
  /-- the grid cycle in which the last step started -/
  lastStart : Option Nat := none
  waited : Nat := 0
  shed : Bool := false
  /-- stopped before its next step, its block being saved: it holds no buckets and no Baton (R338) -/
  halted : Bool := false
  price : Nat
  /-- buckets now held; of a shed loop, those granted to it again -/
  held : Nat
  /-- a shed loop's request (R117) -/
  request : Option Request := none
  fut : Option Word32 := none
  /-- accumulates landed up to here; completion is due then -/
  doneAt : Option Nat := none
  deriving DecidableEq, Repr

/-- What a cell of a south-port register holds (R256): 32 bytes of data and a scale tag. -/
structure Cell where
  data : List Byte
  tag : Nat
  deriving DecidableEq, Repr

/-- A south-port register (R256) with the time of its push, and the edge link that it empties into (R260): entries with
the cycle from which each may be popped. -/
structure Port where
  cells : Tbl Cell := []
  full : Bool := false
  pushed : Nat := 0
  link : List (Nat × Tbl Cell) := []
  deriving DecidableEq, Repr

/-- The events a context can wait for while parked (R283). -/
inductive Wait
  | future (h : Word32)
  | barrier (band : Option Nat) (k : Nat) (tok : Word32)
  | watch (deadline : Option Nat)
  | range
  deriving DecidableEq, Repr

/-- A watch (R292): the line's space, its line number, the serial that tags its wake, the address as mon gave it (R340); none of a
space is a global line. -/
structure Watch where
  space : Option Space
  line : Nat
  serial : Nat
  addr : Word64 := 0
  deriving DecidableEq, Repr

/-- Where an instruction that takes several cycles stands: what it has done so far. -/
inductive Stage
  /-- not begun -/
  | fresh
  /-- bar: arrived with this token (R291) -/
  | arrived (tok : Word32)
  /-- bkmode: released, waiting for the new mask (R249); then it has it, from this grid cycle -/
  | wantMask (mask : Word32) | gotMask (cycle : Nat)
  /-- mwait: issued at this grid cycle, with the cycles that had gone by then on another grid (R294) -/
  | waitingSince (cycle past : Nat)
  /-- mon.g: waiting for its translation, at the longest until this grid cycle (R216, R293) -/
  | walking (until_ : Nat)
  /-- mon: its request reaches the home filter at this grid cycle: space, line; of a global line the line of its PA, whose home is found when it
  gets there (R210, R293) -/
  | arming (due : Nat) (space : Option Space) (line : Nat)
  /-- mon.g: its request for this line went with a link that failed, and times out at this grid cycle (R216, R355) -/
  | lost (until_ line : Nat)
  /-- rinit and rtake: asked of the range's home at this grid cycle (R297) -/
  | asked (cycle : Nat)
  /-- rinit and rtake: the answer has come (R298) -/
  | answered (value : Word64)
  /-- mpoint: captured, with whether the grid moved (R335) -/
  | atPoint (moved : Option Bool)
  /-- fwait: it waits for this future (R287, R340, R368) -/
  | fwaiting (h : Word32)
  deriving DecidableEq, Repr

/-- A row context (R62, R340). -/
structure Ctx where
  blk : Nat
  /-- block-wide row index (R15) -/
  k : Nat := 0
  rowid : Nat := 0
  bandid : Nat := 0
  pc : Word64 := 0
  v : Vector Lanes 64 := tab 64 fun _ => Lanes.zero
  s : Vector Word64 160 := tab 160 fun _ => 0#64
  /-- m0 to m14; m15 reads all ones (R166) -/
  m : Vector Word32 15 := tab 15 fun i => if i = 0 then 0xFFFFFFFF#32 else 0#32
  acc : Vector Lanes 16 := tab 16 fun _ => Lanes.zero
  fpflags : BitVec 5 := 0
  trapvec : Word64 := 0
  emuvec : Word64 := 0
  trapcause : BitVec 8 := 0
  trappc : Word64 := 0
  trapem : Word64 := 0
  trapmask : Word32 := 0
  trapaddr : Word64 := 0
  trapfut : Word64 := 0
  trapop : Word64 := 0
  traplit : Word32 := 0
  trapd : Byte := 0
  trapa : Byte := 0
  trapb : Byte := 0
  trapc : Byte := 0
  /-- the Handling bit (R328) -/
  handling : Bool := false
  marks : Tbl Mark := []
  /-- registers whose pending mark has gone and that nothing has read or written since (R306) -/
  unjoined : List Nat := []
  /-- an acquire that is still to be made before the next instruction issues (R303) -/
  acqDue : Bool := false
  /-- poisoned vector and scalar registers, and the latest poisoning's address (R325) -/
  poisonV : List Nat := []
  poisonS : List Nat := []
  poisonAddr : Word64 := 0
  inflight : List InFlight := []
  nextId : Nat := 0
  stores : List Store := []
  port : Port := {}
  loop : Option Loop := none
  /-- banks held (R249) -/
  banks : Word32 := 0
  /-- bank operations under way: id, bank mask, end cycle, buckets (R250) -/
  bankOps : List (Nat × Word32 × Nat × Nat) := []
  /-- buckets granted and not yet used (R114) -/
  granted : Nat := 0
  request : Option Request := none
  /-- ready cycles since the last issue in which another issued or none did (R107) -/
  unchosen : Nat := 0
  yieldedUntil : Option Nat := none
  /-- the next cycle at which a re-polling context looks (R283) -/
  repollAt : Option Nat := none
  parked : Option Wait := none
  /-- the future that woke it from a park, and the status word it settled with (R283, R287) -/
  woken : Option (Word32 × Word64) := none
  /-- it does not issue: its task's start action (R312), a pre-emption (R337, R338) or a migration (R344) holds it -/
  held : Bool := false
  stage : Stage := .fresh
  /-- the instruction that has issued and waits to complete: it is not fetched again -/
  going : Option Instr := none
  /-- the first grid cycle in which it may issue again: fetch, branch, check and trap delays -/
  notBefore : Nat := 0
  /-- its PC was reached by a branch that wrapped past bit 51: the fetch there faults (R81) -/
  wrapped : Bool := false
  pendingTrap : Option Trap := none
  /-- the instruction after an icinv invalidates the loop buffer (R89) -/
  icinvNext : Bool := false
  watch : Option Watch := none
  /-- the reason of an unconsumed wake (R294) -/
  wake : Option Nat := none
  /-- class request (R126) -/
  classReq : Option Nat := none
  /-- spawns and invokes so far (R36, R47) -/
  emitted : Nat := 0
  /-- a handed-on Baton's target slot (R276) -/
  bpassTo : Option Nat := none
  /-- Baton moves that passed this pending context over (R276) -/
  batonPassed : Nat := 0
  /-- Baton-pending since it was first found so -/
  batonPending : Bool := false
  /-- the C-die cycle of its latest sget of cycles (R170) -/
  cyclesAt : Option Nat := none
  issued : Bool := false
  /-- done has issued: nothing issues any more, and the row is done once what it has in flight is over (R168) -/
  leaving : Bool := false
  done : Bool := false
  deriving DecidableEq, Repr

/-- A loop body held in a row's loop buffer, or being captured (R89, R90). -/
structure LoopBuf where
  slot : Nat
  fn : Nat
  base : Nat
  len : Nat
  /-- the body, once every line of it is there -/
  bytes : Option (List Byte) := none
  deriving DecidableEq, Repr

/-- A physical row: what its four contexts share (R89, R107, R111, R112, R196). -/
structure PhysRow where
  rr : Nat := 0
  /-- held chain: slot and instruction number (R110) -/
  chain : Option (Nat × Nat) := none
  chainStall : Nat := 0
  latches : Vector Lanes 8 := tab 8 fun _ => Lanes.zero
  valid : BitVec 8 := 0
  lastIssued : Option Nat := none
  baton : Option Nat := none
  lastBaton : Option Nat := none
  /-- special-function queue: cid and result id, oldest first; the last acceptance (R196) -/
  sfuQueue : List (Nat × Nat) := []
  sfuLast : Option Nat := none
  /-- the dot unit's last step start, of any loop (R268) -/
  lastStep : Option Nat := none
  /-- the grid cycles of the dot unit's latest completion (R269) and of the row's latest issue (R258) -/
  lastDone : Option Nat := none
  issuedAt : Option Nat := none
  /-- the latest grid cycle in which the row found a ready context (R123) -/
  found : Option Nat := none
  buf : Option LoopBuf := none
  deriving DecidableEq, Repr

/-! ### Grids -/

/-- A tile-table entry (R242). -/
structure Tile where
  /-- 0 empty, 1 filling, 2 ready, 3 draining -/
  state : Nat := 0
  owner : Option Nat := none
  /-- 0 none, 1 t8, 2 t6, 3 t4, 4 bf16, 5 f16 -/
  fmt : Nat := 0
  layB : Bool := false
  gen : Nat := 0
  deriving DecidableEq, Repr

/-- What a Leat operation does (R236 to R247). -/
inductive LeatKind
  | cpyLd | cpySt | gather | scatter
  | fill (slot : Nat) (gen : Nat) (idx : Bool) | drain (slot : Nat) (gen : Nat)
  | atomic (op : AtomOp) (ty : Ty) (operand expected : Word64)
  deriving DecidableEq, Repr

/-- A run of bytes of one unit that lie in one line: the unit's position t, the first byte's place in the unit, its VA,
the count (R227, R230). -/
structure Run where
  t : Nat
  off : Nat
  va : Nat
  len : Nat
  deriving DecidableEq, Repr

/-- A beat sent out (R227): its line, the units that touch it, its physical target once translated. -/
structure Beat where
  id : Nat
  line : Nat
  runs : List Run
  /-- bytes of each run that is to be written, once read -/
  data : List (List Byte) := []
  /-- the grid cycle in which its request times out (R216) -/
  expires : Nat
  /-- physical address of the line, or a peer's or the host's -/
  target : Nat
  kind : Nat
  /-- of an atomic-uncached page, range or region (R217, R311) -/
  atom : Bool := false
  /-- the line's bytes, come while a bank that they go to is held (R235) -/
  answer : Option (List Byte) := none
  /-- a write that has been sent to its peer or the host and waits for the answer -/
  posted : Bool := false
  /-- its request went with a link that failed (R355) -/
  lost : Bool := false
  /-- interleave generation it was stamped with (R210) -/
  gen : Nat
  deriving DecidableEq, Repr

/-- A Leat operation (R227 to R233). -/
structure LeatOp where
  id : Nat
  cid : Nat
  blk : Nat
  kind : LeatKind
  ty : Ty
  layB : Bool
  gva : Nat
  lva : Nat
  e0 : Nat
  n1 : Nat
  n2 : Nat
  gs1 : Int
  gs2 : Int
  ls1 : Int
  ls2 : Int
  reg : Nat
  iw : Bool
  list : Nat
  fut : Word32
  buckets : Nat
  /-- stores of the issuing row still to be acknowledged before it starts (R233) -/
  waitStores : Nat
  /-- the index list once read (R237) -/
  indices : Option (List Nat) := none
  /-- bytes come so far for a slot being filled, by place in the enumeration -/
  staged : Mem := []
  /-- what the future resolves with -/
  result : Word64 := 0
  /-- the regions its block had closed when it was issued (R315, R320) -/
  shut : List Nat := []
  /-- the first 64 bits of its instruction (R341) -/
  word : Word64 := 0
  /-- the next unit and byte of it to send (R227) -/
  at_ : Nat × Nat := (0, 0)
  started : Bool := false
  beats : List Beat := []
  nextBeat : Nat := 0
  /-- the first failing unit's position and the settle value (R232, R233) -/
  failure : Option (Nat × Word64) := none
  deriving DecidableEq, Repr

/-- A read-cache line (R205): its bytes, which words are valid and which owned. -/
structure RLine where
  bytes : List Byte
  valid : BitVec 16
  owned : BitVec 16
  deriving DecidableEq, Repr

/-- A watch-filter entry (R292). -/
structure FilterEntry where
  line : Nat
  reference : List Byte
  cid : Nat
  serial : Nat
  deriving DecidableEq, Repr

/-- An instruction-cache fill in flight (R88). -/
structure Fill where
  fn : Nat
  line : Nat
  due : Nat
  /-- where the line lies, as it was translated when the fill was asked for (R212): direct address, target -/
  addr : Nat := 0
  target : Nat := 0
  discard : Bool := false
  /-- its request went with a link that failed (R355) -/
  lost : Bool := false
  deriving DecidableEq, Repr

/-- A migration under way (R342 to R345). -/
structure Migration where
  target : Option Nat := none
  since : Nat := 0
  /-- every resident context has been captured -/
  captured : Bool := false
  /-- when the first context was held, and since when the holds are lifted (R344) -/
  heldFrom : Option Nat := none
  lifted : Option Nat := none
  /-- not captured within 2^20 grid cycles (R344) -/
  timedOut : Bool := false
  deriving DecidableEq, Repr

structure Grid where
  /-- cycles of the grid's own clock since reset, and the fraction of the next one (R5, R122) -/
  clk : Nat := 0
  frac : Nat := 0
  gated : Bool := false
  idle : Nat := 0
  /-- cycles left of a wake's warm-up (R64) -/
  warm : Nat := 0
  /-- the class it runs at, and a change under way: new class and when (R124) -/
  cls : Nat := 2
  change : Option (Nat × Nat) := none
  /-- class requests as they have reached the grid at a Wheel stop, by block (R126) -/
  reqs : Tbl Nat := []
  /-- activity window: its start, the row-cycles with a ready context, and whether a low window holds it at class 0 (R123) -/
  winStart : Nat := 0
  winReady : Nat := 0
  lowHold : Bool := false
  mcad : Nat := 1
  /-- a cadence not yet in effect: its value and the top-ups still to be granted (R119) -/
  mcadNext : Option Nat := none
  topups : List (Nat × Request) := []
  /-- buckets returned since the packet's last visit (R113) -/
  returned : Nat := 0
  icache : Tbl (List Byte) := []
  fills : List Fill := []
  rcache : Tbl RLine := []
  tiles : Tbl Tile := []
  /-- the tile table as it stood at the start of the grid's cycle (R243) -/
  seen : Tbl Tile := []
  /-- slots to release once no other loop has to read them: slot, and the loop's context and issue cycle (R268) -/
  autoRel : List (Nat × Nat × Nat) := []
  leat : List LeatOp := []
  nextOp : Nat := 0
  /-- bank masks let go: cycle, context, mask; they can be taken from the next cycle (R249) -/
  freed : List (Nat × Nat × Word32) := []
  filter : List FilterEntry := []
  /-- GTEMP (R350): sixteenths of a degree, and whether a reading has been made -/
  temp : BitVec 16 := 0
  tempValid : Bool := false
  /-- held at class 0 by a reading of 105 °C or more (R342) -/
  hot : Bool := false
  migration : Option Migration := none
  /-- remapped SRAM lines, and lines recorded as bad, by array (R334) -/
  remapped : List (Nat × Nat) := []
  badLines : List (Nat × Nat) := []
  /-- retired from placement (R334, R355) -/
  retired : Bool := false
  retireAtIdle : Bool := false
  deriving DecidableEq, Repr

/-! ### Clusters and dies -/

/-- A future-table entry (R278). -/
structure Future where
  /-- 0 software, 1 engine, 2 task -/
  kind : Nat := 0
  /-- 0 empty, 1 pending, 2 resolved, 3 failed, 4 cancelled -/
  state : Nat := 0
  value : Word64 := 0
  cause : Nat := 0
  owner : Option Nat := none
  gen : Nat := 1
  shared : Bool := false
  deriving DecidableEq, Repr

/-- A TLB entry (R214): function, VA base, log2 of the page size, the leaf. -/
structure Page where
  fn : Nat
  base : Nat
  size : Nat
  leaf : Nat
  deriving DecidableEq, Repr

structure Cluster where
  /-- logical to physical position (R53); the identity at reset -/
  map : List Nat := List.range 24
  futures : Tbl Future := []
  tlb : List Page := []
  /-- closed by the M-die whose anchored block it waits for (R57) -/
  closed : Option Nat := none
  /-- the packet: position, cycle of the stop, free buckets, buckets held (R113, R118) -/
  pos : Nat := 0
  tick : Nat := 0
  free : Nat := Config.wheelFloor
  held : Nat := 0
  target : Nat := Config.wheelFloor
  /-- granules waiting for a free walk (R214) -/
  walkQueue : List (Nat × Nat) := []
  deriving DecidableEq, Repr

/-- A die-cache line (R217, R314): the function and VA it was reached by, its target, its bytes with which of them are
present and which dirty, and the forward tag (consumer node, replay) of each forwarded byte. -/
structure DLine where
  fn : Nat
  va : Nat
  kind : Nat
  target : Nat
  bytes : List Byte
  valid : Word64
  dirty : Word64
  tags : Tbl (Nat × Nat) := []
  deriving DecidableEq, Repr

/-- A steal request in flight (R58): which M-die it is at, and when it gets there or its answer is due. -/
structure Steal where
  k : Nat
  due : Nat
  deriving DecidableEq, Repr

structure CDie where
  clk : Nat := 0
  gated : Bool := false
  failed : Bool := false
  idleCount : Nat := 0
  placedNow : Bool := false
  steal : Option Steal := none
  dcache : Tbl DLine := []
  filter : List FilterEntry := []
  /-- walks under way: function, granule, when done (R214) -/
  walks : List (Nat × Nat × Nat) := []
  /-- failed walks as their waiters find them: function, granule, status, the cycle they are forgotten (R213, R215) -/
  walkFails : List (Nat × Nat × Nat × Nat) := []
  /-- walks whose reads went with a link that failed (R355): function, granule -/
  lostWalks : List (Nat × Nat) := []
  turn : Nat := 0
  remapped : List (Nat × Nat) := []
  badLines : List (Nat × Nat) := []
  deriving DecidableEq, Repr

/-! ### Work -/

/-- A record (R35): the envelope's fields and the 48 argument bytes. -/
structure Rec where
  qidx : Nat := 0
  qgen : Nat := 0
  handler : Nat := 0
  prio : Nat := 0
  seed : Bool := false
  spawn : Bool := false
  source : Nat := 0
  seq : Nat := 0
  args : List Byte := []
  deriving DecidableEq, Repr

/-- A record on its way to a bin, or in one (R14, R40). -/
structure BinRec where
  r : Rec
  slot : Nat
  /-- the replay of a seed record -/
  replay : Option Nat := none
  blkid : Nat := 0
  /-- the seed block's full count -/
  need : Nat := 0
  /-- the future of a released spawn -/
  fut : Option Word32 := none
  /-- accepted under an image that a later upload has replaced: the function and the node's header there (log entry 114) -/
  old : Option (Nat × Node) := none
  deriving DecidableEq, Repr

/-- One class of a bin (R14, R40), with its timer's start. -/
structure Bin where
  slot : Nat
  node : Nat
  prio : Nat
  /-- of records accepted under an image that a later upload has replaced, as in BinRec -/
  old : Option (Nat × Node) := none
  recs : List BinRec := []
  timer : Option Nat := none
  deriving DecidableEq, Repr

/-- A queue (R37, R49). -/
structure Queue where
  gen : Nat
  live : Bool := true
  fn : Nat
  slot : Nat
  node : Nat
  spill : Bool
  cap : Nat
  pages : Nat
  /-- the PAs of its ring's pages, as qnew found them, and the ring's places in use, oldest record first (R38) -/
  ring : List Nat := []
  used : List Nat := []
  maxPrio : Nat
  home : Nat
  /-- the records it holds in the Pond, oldest first -/
  recs : List Rec := []
  swapped : Bool := false
  lastUse : Nat := 0
  /-- of a swapped queue with records: the M-die cycle from which it is owed its place in the Pond (R38) -/
  wanted : Option Nat := none
  /-- bound to a node of an image that a later upload has replaced, as in BinRec -/
  old : Option (Nat × Node) := none
  deriving DecidableEq, Repr

structure MDie where
  clk : Nat := 0
  gated : Bool := false
  launch : Nat := 0
  /-- how often the launch count has come round (R43) -/
  laps : Nat := 0
  inserts : List BinRec := []
  bins : List Bin := []
  /-- blocks formed and not placed -/
  ready : List Nat := []
  turn : Nat := 0
  /-- the cycle of its latest placement (R56) -/
  placed : Option Nat := none
  anchor : Option Nat := none
  filter : List FilterEntry := []
  /-- the journal copy has failed (R355) -/
  journalFailed : Bool := false
  /-- bad and remapped lines of the Pond (R334) -/
  remapped : List (Nat × Nat) := []
  badLines : List (Nat × Nat) := []
  deriving DecidableEq, Repr

/-- A spawned or invoked record held in the journal (R41). -/
structure Held where
  task : Nat
  blk : Nat
  serial : Nat
  row : Nat
  emit : Nat
  r : Rec
  /-- none for a spawn; the accelerator for an invoke -/
  acc : Option Nat
  slot : Nat
  fut : Option Word32
  deriving DecidableEq, Repr

/-- An invoked record after its release (R42). -/
structure Invoked where
  h : Held
  sent : Option Nat := none
  first : Nat := 0
  /-- pacing keeps it in the journal: it is not released (R43) -/
  waits : Bool := false
  deriving DecidableEq, Repr

/-- A retire write not yet acknowledged (R43). -/
structure RetireW where
  acc : Nat
  m : Nat
  f : Nat
  t : Nat
  sent : Nat
  /-- f counted on, not modulo 2^30 (R43) -/
  from_ : Nat := 0
  deriving DecidableEq, Repr

/-- A retained answer (R42). -/
structure Retained where
  source : Nat
  seq : Nat
  status : Nat
  at_ : Nat
  m : Nat
  deriving DecidableEq, Repr

/-- A block's span on one grid (R13). -/
structure Span where
  g : Nat
  base : Nat
  lim : Nat
  deriving DecidableEq, Repr

/-- A barrier (R290). -/
structure Barrier where
  phase : Word32 := 0
  arrived : List Nat := []
  deriving DecidableEq, Repr

/-- What a block is doing: waiting in a ready list, resident, being drained, being stopped to be saved or restarted,
saved, gone. -/
inductive BPhase
  | ready | resident | draining (deadline : Nat) | stopping (restart : Bool) | saved | aborting | retired
  deriving DecidableEq, Repr

/-- An rinit or rtake on its way to its block's range (R297): the cycle of the grid that keeps the range in which it arrives, the row's block-wide
index, its context, and of an rinit the new range. -/
structure RangeReq where
  due : Nat
  k : Nat
  cid : Nat
  init : Option (Nat × Nat) := none
  deriving DecidableEq, Repr

/-- A block (R14, R36, R62). -/
structure Block where
  task : Nat
  fn : Nat
  slot : Nat
  node : Nat
  hdr : Node
  blkid : Nat
  prio : Nat
  recs : List Rec
  bin : Nat
  serial : Nat
  formed : Nat
  passedFrom : Option Nat := none
  phase : BPhase := .ready
  cluster : Nat := 0
  spans : List Span := []
  /-- contexts by block-wide row index (R15) -/
  rows : List Nat := []
  barriers : Tbl Barrier := []
  lo : Nat := 0
  hi : Nat := 0
  hasRange : Bool := false
  rinit : Bool := false
  /-- rinits and rtakes on their way to the range (R297) -/
  requests : List RangeReq := []
  /-- a steal this block runs (R298): the victim asked, and the blocks that have answered before it -/
  stealing : Option (Nat × List Nat) := none
  /-- parked takers of its range, in arrival order -/
  takers : List Nat := []
  /-- thieves waiting for this block's answer -/
  asked : List Nat := []
  scrbase : Nat := 0
  scrlim : Nat := 0
  /-- instructions issued and rows done (R336) -/
  count : Nat := 0
  rdone : Bool := false
  closed : List Nat := []
  /-- of a saved block: its contexts, spans, slots and banks, and the anchored block whose request caused the save (R338) -/
  image : Option (List Ctx) := none
  savedFor : Option Nat := none
  imageMem : List (Nat × Mem) := []
  imageTiles : List (Nat × Nat × Tile × Mem) := []
  imageBanks : List (Nat × Nat × Mem) := []
  imageLeat : List (Nat × LeatOp) := []
  /-- releases of its slots that wait for another loop's read: grid, slot, and the context whose loop released it where that loop is in the
  image (R268) -/
  imageRel : List (Nat × Nat × Option Nat) := []
  /-- where its image lies in the save area: direct address, bytes (R338) -/
  savedAt : Option (Nat × Nat) := none
  /-- of a save whose flush has been sent: the writes to peers below this number are awaited (R318) -/
  mark : Option Nat := none
  failed : Option Nat := none
  deriving DecidableEq, Repr

/-- A task: the blocks of one node in one replay, or one handler block (Nodes, R23, R24). -/
structure Task where
  fn : Nat
  slot : Nat
  node : Nat
  replay : Option Nat
  hdr : Node
  fut : Option Word32 := none
  total : Nat
  retired : Nat := 0
  /-- C-dies that have run its blocks -/
  dies : List Nat := []
  /-- read regions dropped from those dies' caches at its start (R312) -/
  started : List Nat := []
  /-- start actions whose first step has been taken: C-die, and the number below which writes to peers are awaited (R312) -/
  starting : List (Nat × Nat) := []
  /-- the completion action has begun: the number below which writes to peers are awaited (R313) -/
  finishing : Option Nat := none
  finished : Bool := false
  failed : Option (Nat × Nat) := none
  /-- held back from placement by overlap (R316); counted as such since the last reset (R321) -/
  held : Bool := false
  counted : Bool := false
  active : Bool := false
  /-- regions closed by rdone whose flush is done: region, block (R316, R320) -/
  closing : List (Nat × Nat) := []
  order : Nat := 0
  deriving DecidableEq, Repr

/-- A region closed by rdone (R320): what its flush waits for, the futures that wait for it with their values, and how far it is. -/
structure Flush where
  blk : Nat
  reg : Nat
  cid : Nat
  waitStores : Nat
  ops : List (Nat × Nat)
  futs : List (Word32 × Nat) := []
  started : Bool := false
  /-- the number below which writes to peers are awaited -/
  mark : Nat := 0
  done : Bool := false
  deriving DecidableEq, Repr

/-- A replay (R23, R31, R33). -/
structure Replay where
  fn : Nat
  slot : Nat
  kick : Nat
  count : Nat
  image : Mem
  started : List Nat := []
  finished : List Nat := []
  failed : Option (Nat × Nat) := none
  /-- at its end: the number below which writes to peers are awaited (R34) -/
  mark : Option Nat := none
  ended : Bool := false
  deriving DecidableEq, Repr

/-- A graph slot (R20, R30). -/
structure Slot where
  image : Mem := []
  code : Nat := 0x00FE
  badnode : Nat := 0xFFFF
  badoff : Nat := 0
  kick : Nat := 0
  /-- the function that uploaded it -/
  fn : Nat := 0
  deriving DecidableEq, Repr

/-- A function's BAR0 registers (R28, R29, R32). -/
structure Func where
  winbase : Nat := 0
  slotBase : Nat := 0
  slotCount : Nat := 0
  upSlot : Nat := 0
  /-- a commit under way: the absolute slot -/
  commit : Option Nat := none
  upwin : Mem := []
  nref : Nat := 0
  refSlot : Nat := 0
  refStatus : Nat := 0
  /-- the scratchpad window (R204), the page-table root (R213) -/
  scrBase : Nat := 0
  scrCount : Nat := 0
  ptroot : Nat := 0
  deriving DecidableEq, Repr

/-- A range-table entry (R211), as its four registers. -/
structure RangeEntry where
  base : Word64 := 0
  lim : Word64 := 0
  off : Word64 := 0
  attr : Word64 := 0
  deriving DecidableEq, Repr

/-- What the part sends out: to the host, to peers, to the management controller's users. -/
inductive Output
  | hostWrite (addr : Nat) (data : List Byte)
  | msix (fn vec : Nat)
  | linkWrite (acc : Nat) (data : List Byte)
  | linkError
  | answer (acc : Nat) (data : List Byte)
  | readData (data : List Byte)
  | memRequest (kind target : Nat) (acc : MemAcc)
  /-- an access of the host that fails with a status of R215 -/
  | accessFailed (status : Nat)
  | doe (data : Word64)
  | spdm (code : Byte) (data : List Byte)
  deriving DecidableEq, Repr

/-! ### The machine -/

/-- How a physical row's choice is accounted for: the first of a cycle, one after its held chain broke in that cycle, one
after the context chosen first could not issue, one of a row above such a row, which a port entry taken there may let go on (R107,
R110, R123, R243, R258). -/
inductive Round
  | first | broken | again | relook
  deriving DecidableEq, Repr

/-- What the step is to do next: an event of the table, a cycle of a grid, a physical row's choice of a context, the issue
of that context's next instruction, at once or after the other rows' choices, or the end of a row whose done has issued. The model's own (assumption 2). -/
inductive Action
  | event (i : Instr) | cycle (g : Nat) | row (p : Nat) (round : Round) | issue (cid : Nat) | late (cid : Nat) | leave (cid : Nat)
  deriving DecidableEq, Repr

/-- The whole part. -/
structure State where
  /-- the context whose instruction is being issued; the model's own (assumption 2) -/
  cur : Option Nat := none
  /-- actions left of this cycle; the model's own (assumption 2) -/
  agenda : List Action := []
  /-- how the latest attempt to issue ended: 1 issued, 2 trapped, 3 waits, 4 waits having taken the issue slot; the model's
  own (assumption 2) -/
  verdict : Nat := 0
  /-- what the outside world does next; the model's own (assumption 3) -/
  inputs : List Instr := []
  /-- what the part has sent out; the model's own (assumption 3) -/
  out : List Output := []
  /-- free values drawn so far; the model's own (assumption 4) -/
  draws : Nat := 0
  /-- device memory by direct physical address (R208) -/
  home : Mem := []
  /-- side memory of every grid: 2^21 g + offset (R200) -/
  side : Mem := []
  /-- die scratchpads: 2^27 d + offset (R203) -/
  scratch : Mem := []
  /-- operand slots: 17408 (32 g + slot) + byte, elements then strip (R142) -/
  slotMem : Mem := []
  /-- bank registers and accumulators: 1024 (32 g + bank) + byte; bq at 64 q, ba at 512 + 64 j (R248) -/
  bankMem : Mem := []
  /-- last-writer grid of each word of side memory and of the scratchpads (R206) -/
  sideWriter : Tbl Nat := []
  scratchWriter : Tbl Nat := []
  ctxs : Tbl Ctx := []
  prows : Tbl PhysRow := []
  grids : Tbl Grid := []
  clusters : Tbl Cluster := []
  cdies : Tbl CDie := []
  mdies : Tbl MDie := []
  blocks : Tbl Block := []
  tasks : Tbl Task := []
  replays : Tbl Replay := []
  slots : Tbl Slot := []
  funcs : Tbl Func := []
  queues : Tbl Queue := []
  nextBlock : Nat := 0
  nextTask : Nat := 0
  nextReplay : Nat := 0
  /-- serial of the latest watch (R292) -/
  watchSerial : Nat := 0
  /-- wakes on their way: context, serial, reason (R292) -/
  wakes : List (Nat × Nat × Nat) := []
  /-- the device's kick count (R36) -/
  kickCount : Nat := 0
  /-- this device's accelerator id (R35) -/
  accId : Nat := 0
  journal : List Held := []
  /-- the X-die's clock, its invocations, retire writes and what it has sent to whom: (accelerator, M-die, count) (R42, R43) -/
  xclk : Nat := 0
  xgated : Bool := false
  invoked : List Invoked := []
  sentTo : List (Nat × Nat × Nat) := []
  retireWrites : List RetireW := []
  retained : List Retained := []
  /-- write-backs to peers and the host not yet acknowledged, by number (R313); the next number -/
  peerWrites : List Nat := []
  peerNext : Nat := 0
  /-- write-backs of die caches, numbered with those, and accesses of the host and of peers that a rewrite of the interleave table holds back
  (R210): number, PA, bytes -/
  heldBacks : List (Nat × Nat × List Byte) := []
  heldReqs : List Instr := []
  /-- the X-die's count of sequentially consistent fences (R305) -/
  fenceOrder : Nat := 0
  ranges : Tbl RangeEntry := []
  itable : List Nat := (List.range 256).map fun j => j % 4
  itmap : Tbl Word64 := []
  itgen : Nat := 1
  itbusy : Bool := false
  itstatus : Nat := 0
  dsplit : Nat := 2
  dsplitLocked : Bool := false
  /-- regions closed by rdone (R320) -/
  flushes : List Flush := []
  /-- WOVL's held count (R321) -/
  wovlHeld : Nat := 0
  /-- MPWR's pwr, PCLAMP's plim and clamp (R349) -/
  pwr : Nat := 0
  plim : Nat := 2800
  clamp : Bool := false
  /-- ECNT's counts (R352), and the retired pages by direct address / 4096 -/
  ecntDrop : Nat := 0
  ecntLast : Nat := 0
  ecntTrans : Nat := 0
  badPages : List Nat := []
  /-- Promorvo's two windows on host memory: base and limit in units of 4 KiB, empty while the limit is below (R351) -/
  hostWins : List (Nat × Nat) := [(1, 0), (1, 0)]
  /-- the image in module flash as the latest cold reset found it, with its security version; none of the reset state, whose image has booted
  (R353, log entry 70) -/
  flash : Option (Signature × Nat) := none
  /-- secure boot failed: the device stays in recovery (R353) -/
  recovery : Bool := false
  /-- failed parts other than C-dies and journal copies (R355): links, UALink ports, reduction units, HBM4E stacks -/
  badLinks : List (Nat × Nat) := []
  badPorts : List Nat := []
  badReduction : Bool := false
  badStacks : List Nat := []
  /-- tasks that a request lost with a link has touched: they restart whole with the next cycle (R355) -/
  lostTasks : List Nat := []
  deriving DecidableEq, Repr

/-- A stop whose state nothing leaves. -/
inductive Fault
  /-- raised by no meaning of this model: every event of the spec has a next state -/
  | none
  deriving DecidableEq, Repr

/-- A step without a meaning. -/
inductive Refusal
  /-- an instruction rejected by name in Dispatch; safe -/
  | notModelled (mnemonic : String)
  deriving DecidableEq, Repr

/-- The machine right after a cold reset (R357). -/
def State.reset : State := {}

end Sys2Proof.Machine
end

