-- ==== Sys2Proof/Machine/Ops.lean ====
section
/-! DEFINITION. The named operations over State: finding and changing what the tables hold, registers, local addresses and
memory, futures and parking, the Baton, taking a trap (R326) and returning from one (R333), aborting a block (R329). -/
namespace Sys2Proof.Machine

/-! ### Places -/

/-- The physical row, slot plane, grid, cluster and C-die of a context slot. -/
def rowOf (cid : Nat) : Nat := cid / 4
def planeOf (cid : Nat) : Nat := cid % 4
def gridOf (cid : Nat) : Nat := cid / 128
/-- The physical row's number within its grid. -/
def physOf (cid : Nat) : Nat := cid / 4 % 32
def clusterOf (g : Nat) : Nat := g / 24
def dieOf (g : Nat) : Nat := g / 48
/-- Physical position in the cluster; positions 0 to 11 lie on one half (R52). -/
def posOf (g : Nat) : Nat := g % 24
def cidAt (g row plane : Nat) : Nat := 128 * g + 4 * row + plane

def Ctx.empty : Ctx := { blk := 0 }
/-- PF: all 4,096 slots, and the whole scratchpad as window (R28, R204). -/
def Func.reset (f : Nat) (split : Nat) : Func :=
  if f = 0 then { slotCount := 4096, scrCount := match split with | 0 => 2048 | 1 => 1792 | 2 => 1536 | _ => 1024 } else {}

def State.ctx? (s : State) (cid : Nat) : Option Ctx := Tables.get? s.ctxs cid
def State.ctx (s : State) (cid : Nat) : Ctx := (s.ctx? cid).getD Ctx.empty
def State.prow (s : State) (p : Nat) : PhysRow := (Tables.get? s.prows p).getD {}
def State.grid (s : State) (g : Nat) : Grid := (Tables.get? s.grids g).getD {}
def State.cluster (s : State) (c : Nat) : Cluster := (Tables.get? s.clusters c).getD {}
def State.cdie (s : State) (d : Nat) : CDie := (Tables.get? s.cdies d).getD {}
def State.mdie (s : State) (m : Nat) : MDie := (Tables.get? s.mdies m).getD {}
def State.block? (s : State) (b : Nat) : Option Block := Tables.get? s.blocks b
def State.task? (s : State) (t : Nat) : Option Task := Tables.get? s.tasks t
def State.replay? (s : State) (r : Nat) : Option Replay := Tables.get? s.replays r
def State.slot (s : State) (n : Nat) : Slot := (Tables.get? s.slots n).getD {}
def State.func (s : State) (f : Nat) : Func := (Tables.get? s.funcs f).getD (Func.reset f s.dsplit)

def State.setCtx (s : State) (cid : Nat) (x : Ctx) : State := { s with ctxs := Tables.set cid x s.ctxs }
def State.setRow (s : State) (p : Nat) (x : PhysRow) : State := { s with prows := Tables.set p x s.prows }
def State.setGrid (s : State) (g : Nat) (x : Grid) : State := { s with grids := Tables.set g x s.grids }
def State.setCluster (s : State) (c : Nat) (x : Cluster) : State := { s with clusters := Tables.set c x s.clusters }
def State.setCdie (s : State) (d : Nat) (x : CDie) : State := { s with cdies := Tables.set d x s.cdies }
def State.setMdie (s : State) (m : Nat) (x : MDie) : State := { s with mdies := Tables.set m x s.mdies }
def State.setBlock (s : State) (b : Nat) (x : Block) : State := { s with blocks := Tables.set b x s.blocks }
def State.setTask (s : State) (t : Nat) (x : Task) : State := { s with tasks := Tables.set t x s.tasks }
def State.setReplay (s : State) (r : Nat) (x : Replay) : State := { s with replays := Tables.set r x s.replays }
def State.setSlot (s : State) (n : Nat) (x : Slot) : State := { s with slots := Tables.set n x s.slots }
def State.setFunc (s : State) (f : Nat) (x : Func) : State := { s with funcs := Tables.set f x s.funcs }

/-- The cadence register (R119): the value last written, though it may not be in effect yet. -/
def Grid.cadence (x : Grid) : Nat := x.mcadNext.getD x.mcad
/-- Change a context that is there. -/
def State.updCtx (s : State) (cid : Nat) (f : Ctx → Ctx) : State :=
  match s.ctx? cid with | some x => s.setCtx cid (f x) | none => s
def State.updRow (s : State) (p : Nat) (f : PhysRow → PhysRow) : State := s.setRow p (f (s.prow p))
def State.updGrid (s : State) (g : Nat) (f : Grid → Grid) : State := s.setGrid g (f (s.grid g))
def State.updCluster (s : State) (c : Nat) (f : Cluster → Cluster) : State := s.setCluster c (f (s.cluster c))
def State.updCdie (s : State) (d : Nat) (f : CDie → CDie) : State := s.setCdie d (f (s.cdie d))
def State.updMdie (s : State) (m : Nat) (f : MDie → MDie) : State := s.setMdie m (f (s.mdie m))
def State.updSlot (s : State) (n : Nat) (f : Slot → Slot) : State := s.setSlot n (f (s.slot n))
def State.updFunc (s : State) (n : Nat) (f : Func → Func) : State := s.setFunc n (f (s.func n))
def State.updBlock (s : State) (b : Nat) (f : Block → Block) : State :=
  match s.block? b with | some x => s.setBlock b (f x) | none => s
def State.updTask (s : State) (b : Nat) (f : Task → Task) : State :=
  match s.task? b with | some x => s.setTask b (f x) | none => s
def State.updReplay (s : State) (b : Nat) (f : Replay → Replay) : State :=
  match s.replay? b with | some x => s.setReplay b (f x) | none => s
/-- The grid is captured for a migration: its contexts are held until it has moved (R344). -/
def State.captured (s : State) (g : Nat) : Bool := match (s.grid g).migration with | some m => m.captured | none => false
/-- Change every context. -/
def State.mapCtxs (s : State) (f : Nat → Ctx → Ctx) : State := { s with ctxs := Tables.mapVal f s.ctxs }
/-- Tasks to restart with the next cycle (R355). -/
def State.touch (s : State) (ts : List Nat) : State := { s with lostTasks := s.lostTasks ++ (ts.eraseDups.filter fun t => !s.lostTasks.contains t) }
/-- Send something out. -/
def State.emit (s : State) (o : Output) : State := { s with out := s.out ++ [o] }

/-- The context's block and its task. -/
def State.blockOf (s : State) (x : Ctx) : Block := (s.block? x.blk).getD
  { task := 0, fn := 0, slot := 0, node := 0, hdr := {}, blkid := 0, prio := 0, recs := [], bin := 0, serial := 0, formed := 0 }
def State.taskOf (s : State) (b : Block) : Task := (s.task? b.task).getD
  { fn := 0, slot := 0, node := 0, replay := none, hdr := {}, total := 0 }
/-- The block's span on a grid (R13). -/
def Block.span? (b : Block) (g : Nat) : Option Span := b.spans.find? fun sp => sp.g == g
def Block.spanOn (b : Block) (g : Nat) : Span := (b.span? g).getD ⟨g, 0, 0⟩
/-- Now, on the grid's clock. -/
def State.now (s : State) (cid : Nat) : Nat := (s.grid (gridOf cid)).clk

/-! ### Registers -/

def Ctx.sreg (x : Ctx) (n : Nat) : Word64 := x.s.toArray.toList.getD n 0#64
def Ctx.vreg (x : Ctx) (n : Nat) : Lanes := x.v.toArray.toList.getD n Lanes.zero
/-- A mask; m15 reads all ones (R166). -/
def Ctx.mask (x : Ctx) (n : Nat) : Word32 := x.m.toArray.toList.getD n 0xFFFFFFFF#32
def Ctx.accum (x : Ctx) (n : Nat) : Lanes := x.acc.toArray.toList.getD n Lanes.zero
/-- A write to a scalar register: its value, its mark gone (R281) and nothing of it left to join (R306), its poison gone
(R325). -/
def Ctx.setS (x : Ctx) (n : Nat) (val : Word64) : Ctx :=
  { x with s := x.s.setIfInBounds n val
           marks := Tables.erase x.marks n
           unjoined := x.unjoined.filter (· != n)
           poisonS := x.poisonS.filter (· != n) }
/-- Lanes of a vector register under a mask; a write of all 32 lanes clears its poison (R325). -/
def Ctx.setV (x : Ctx) (n : Nat) (val : Lanes) (mask : Word32) : Ctx :=
  let w := tab 32 fun l => if mask.getLsbD l then val.get l else (x.vreg n).get l
  { x with v := x.v.setIfInBounds n w
           poisonV := if mask = 0xFFFFFFFF#32 then x.poisonV.filter (· != n) else x.poisonV }
/-- A write to a mask; m15 is hard-wired (R62). -/
def Ctx.setM (x : Ctx) (n : Nat) (val : Word32) : Ctx :=
  { x with m := x.m.setIfInBounds n val }
def Ctx.setAcc (x : Ctx) (n : Nat) (val : Lanes) (mask : Word32) : Ctx :=
  let w := tab 32 fun l => if mask.getLsbD l then val.get l else (x.accum n).get l
  { x with acc := x.acc.setIfInBounds n w }
/-- The active lanes of R76. -/
def Ctx.active (x : Ctx) (f : Fields) : Word32 :=
  let g := x.mask f.guard.toNat
  x.mask 0 &&& (if f.ginv then ~~~g else g)

/-- A landed result written to a context (R106); latches belong to the row. -/
def RegWrite.apply (w : RegWrite) (poison : Bool) (x : Ctx) : Ctx :=
  match w with
  | .v n val mask =>
    let y := x.setV n val mask
    if poison then { y with poisonV := n :: y.poisonV.filter (· != n) } else y
  | .s n val =>
    let y := x.setS n val
    if poison then { y with poisonS := n :: y.poisonS.filter (· != n) } else y
  | .m n val => x.setM n val
  | .acc n val mask => x.setAcc n val mask
  | .latch _ _ => x
/-- A write that leaves poison where its load is bad: a vector or a scalar register's (R325). -/
def RegWrite.poisons : RegWrite → Bool
  | .v .. | .s .. => true
  | _ => false
/-- Capture a result into a latch of the row (R80, R111). -/
def PhysRow.setLatch (r : PhysRow) (n : Nat) (val : Lanes) : PhysRow :=
  { r with latches := r.latches.setIfInBounds n val
           valid := r.valid ||| BitVec.ofNat 8 (2 ^ n) }

/-! ### SRAM faults (R334) -/
/-- The bad lines of a unit, by array: of grid u its side memory 0, slots 1, bank state 2, vector registers 3, scalar registers 4,
accumulators 5, ports 6, read cache 7, instruction cache 8; of C-die u − 384 its scratchpad 0 and die cache 1; of M-die u − 392 its
Pond 0. -/
def State.badLinesOf (s : State) (u : Nat) : List (Nat × Nat) :=
  if u < 384 then (s.grid u).badLines else if u < 392 then (s.cdie (u - 384)).badLines else (s.mdie (u - 392)).badLines
/-- Record a lastingly bad line of a unit (R334). -/
def State.recordLine (s : State) (u array line : Nat) : State :=
  if (s.badLinesOf u).contains (array, line) then s
  else if u < 384 then s.updGrid u fun x => { x with badLines := x.badLines ++ [(array, line)] }
  else if u < 392 then s.updCdie (u - 384) fun x => { x with badLines := x.badLines ++ [(array, line)] }
  else s.updMdie (u - 392) fun x => { x with badLines := x.badLines ++ [(array, line)] }
def State.sramBad (s : State) (u array line : Nat) : Bool := (s.badLinesOf u).contains (array, line)
/-- A line that a load or a beat reads: array 0 of its unit. -/
def State.lineBad (s : State) (e : Nat × Nat) : Bool := s.sramBad e.1 0 e.2
/-- The unit and the line of a byte of local memory. -/
def sramLine : Space → Nat → Nat × Nat
  | .side g, off => (g, off / 64)
  | .scratch d, off => (384 + d, off / 64)
/-- The line of a context's register storage: array 3 to 6, register. -/
def regLine (cid array n : Nat) : Nat := match array with
  | 3 => 64 * (cid % 128) + n | 4 => 160 * (cid % 128) + n | 5 => 16 * (cid % 128) + n | _ => physOf cid
def State.regBad (s : State) (cid array n : Nat) : Bool := s.sramBad (gridOf cid) array (regLine cid array n)

/-- Put a result in flight (R106). -/
def State.launch (s : State) (cid : Nat) (lat : Nat) (writes : List RegWrite) (flags : BitVec 5 := 0) (buckets : Nat := 0)
    (queued : Bool := false) (canFlag : Bool := false) : State :=
  s.updCtx cid fun x => { x with
    inflight := x.inflight ++ [{ id := x.nextId, due := s.now cid + lat, writes := writes, flags := flags, buckets := buckets, queued := queued, canFlag := canFlag }]
    nextId := x.nextId + 1 }
/-- Hand buckets back to the packet, which collects them at the grid's next stop (R113, R114). -/
def State.returnBuckets (s : State) (g n : Nat) : State :=
  if n = 0 then s else s.updGrid g fun gr => { gr with returned := gr.returned + n }
/-- A result lands: its registers, its flags, its latch, its buckets (R106, R111, R114, R132). -/
def State.land (s : State) (cid : Nat) (r : InFlight) : State :=
  let s1 := s.updCtx cid fun x =>
    let y := r.writes.foldl (fun x w => w.apply r.poison.isSome x) x
    { y with inflight := y.inflight.filter fun e => e.id != r.id
             fpflags := y.fpflags ||| r.flags
             poisonAddr := if r.writes.any (·.poisons) then r.poison.getD y.poisonAddr else y.poisonAddr }
  let s2 := r.writes.foldl (fun (s : State) w => match w with
    | .latch n val => s.updRow (rowOf cid) fun p => p.setLatch n val
    | _ => s) s1
  s2.returnBuckets (gridOf cid) r.buckets

/-! ### Futures and parking (R277 to R283) -/

/-- The parts of a handle (R277). -/
def handleCluster (h : Word32) : Nat := bitsOf h 31 28
def handleIndex (h : Word32) : Nat := bitsOf h 27 14
def handleGen (h : Word32) : Nat := bitsOf h 13 0
def mkHandle (c idx gen : Nat) : Word32 := BitVec.ofNat 32 (c * 2 ^ 28 + idx * 2 ^ 14 + gen)
/-- The entry a handle names; none when it is stale. -/
def State.future? (s : State) (h : Word32) : Option Future :=
  let e := (Tables.get? (s.cluster (handleCluster h)).futures (handleIndex h)).getD {}
  if e.gen = handleGen h ∧ e.state ≠ 0 then some e else none
def State.setFuture (s : State) (h : Word32) (e : Future) : State :=
  s.updCluster (handleCluster h) fun c => { c with futures := Tables.set (handleIndex h) e c.futures }
/-- Entries of a cluster in use, and those of one block. -/
def Cluster.liveFutures (c : Cluster) : List Future := (c.futures.filter fun e => e.2.state != 0).map (·.2)
def Cluster.ownedBy (c : Cluster) (b : Nat) : Nat := (c.liveFutures.filter fun e => e.owner == some b && !e.shared).length
def Cluster.sharedUsed (c : Cluster) : Nat := (c.liveFutures.filter fun e => e.shared).length
/-- The lowest-numbered free entry (R277), within the table. -/
def lowestFree (t : Tbl Future) : Nat → Nat → Nat
  | 0, i => i
  | k + 1, i => if ((Tables.get? t i).getD {}).state = 0 then i else lowestFree t k (i + 1)
/-- Entries of a cluster's table (R277). -/
def futureEntries : Nat := 16384
/-- The entry that an allocation takes; none where every entry is taken (R277). -/
def Cluster.freeEntry (c : Cluster) : Option Nat :=
  let i := lowestFree c.futures c.futures.length 0
  if i < futureEntries then some i else none
/-- Allocate an entry (R279): from the block's reserve, else from the shared pool; none when that is empty, or no entry is free. -/
def State.allocFuture (s : State) (c : Nat) (kind : Nat) (owner : Option Nat) (reserve : Nat) : Option (State × Word32) :=
  let cl := s.cluster c
  let own := match owner with | some b => decide (cl.ownedBy b < reserve) | none => false
  if own || decide (cl.sharedUsed < 4096) then cl.freeEntry.map fun i =>
    let old := (Tables.get? cl.futures i).getD {}
    let h := mkHandle c i old.gen
    (s.setFuture h { kind := kind, state := 1, owner := owner, gen := old.gen, shared := !own }, h)
  else none
/-- A block's future reserve: 4 entries for each of its rows (R279). -/
def Block.reserve (b : Block) : Nat := 4 * b.hdr.total
/-- Free an entry: its generation moves on (R277, R279). -/
def State.freeFuture (s : State) (h : Word32) : State :=
  match s.future? h with
  | some e => s.setFuture h { gen := if e.gen = 16383 then 1 else e.gen + 1 }
  | none => s
/-- An fwait of the context stands and waits for the future, parked or re-polling or just restored (R283, R284, R368). -/
def Ctx.awaitsFuture (x : Ctx) (h : Word32) : Bool := x.parked == some (.future h) || x.stage == .fwaiting h
/-- A context as a future settles: its marks (R281), the registers that a read is now to join (R306), and its wait, with the status that an fwait
then writes (R283, R368). -/
def Ctx.settled (x : Ctx) (h : Word32) (state cause : Nat) (addr : Word64) : Ctx :=
  { x with unjoined := x.unjoined ++ x.marks.filterMap fun e => if e.2 = .pending h then some e.1 else none
           marks := x.marks.filterMap (fun e => if e.2 = .pending h then (if state = 2 then none else some (e.1, .failed h cause addr)) else some e)
           woken := if x.awaitsFuture h then some (h, BitVec.ofNat 64 ((state - 1) + 256 * (if state = 3 ∨ state = 4 then cause else 0))) else x.woken
           parked := if x.parked = some (.future h) then none else x.parked }
/-- Change every context of every block image (R338). -/
def State.mapImages (s : State) (f : Ctx → Ctx) : State :=
  { s with blocks := Tables.mapVal (fun _ b => { b with image := b.image.map fun l => l.map f }) s.blocks }
/-- Settle an entry (R278), mark the registers that name it (R281) and wake whoever waits on it (R283). -/
def State.settle (s : State) (h : Word32) (state : Nat) (value : Word64) (cause : Nat) : State :=
  match s.future? h with
  | none => s
  | some e =>
    if e.state ≠ 1 then s
    else
      let s1 := s.setFuture h { e with state := state, value := value, cause := cause }
      let addr : Word64 := if cause = 6 ∨ cause = 7 then value &&& 0xFFFFFFFFFFFFF#64 else 0
      let s2 := (s1.mapCtxs fun _ x => x.settled h state cause addr).mapImages fun x => x.settled h state cause addr
      let gone : Bool := match e.owner with
        | some b => (match s.block? b with | some blk => blk.phase == .retired | none => true)
        | none => false
      if gone then s2.freeFuture h else s2
/-- The status word of R286. -/
def State.futureStatus (s : State) (h : Word32) : Word64 :=
  match s.future? h with
  | none => 4
  | some e => BitVec.ofNat 64 ((e.state - 1) + 256 * (if e.state = 3 ∨ e.state = 4 then e.cause else 0))

/-- Contexts of a cluster that are parked: they hold its wait table's entries (R283). -/
def State.waiters (s : State) (c : Nat) : Nat := (s.ctxs.filter fun e => clusterOf (gridOf e.1) == c && e.2.parked.isSome).length
/-- Park the context, or have it re-poll when the wait table's 1,024 entries are taken (R283). -/
def State.park (s : State) (cid : Nat) (w : Wait) : State :=
  if s.waiters (clusterOf (gridOf cid)) < 1024 then s.updCtx cid fun x => { x with parked := some w, repollAt := none }
  else s.updCtx cid fun x => { x with repollAt := some (s.now cid + 256) }
/-- Wake the contexts that satisfy a predicate. -/
def State.wakeWhere (s : State) (p : Nat → Ctx → Bool) : State :=
  s.mapCtxs fun cid x => if p cid x then { x with parked := none } else x

/-! ### Local addresses (R198 to R201) -/

/-- Where a local access of n bytes lands for a context: the memory and the byte's place in it; none outside every
allocation (R198, R199, R201). -/
def State.resolve (s : State) (cid : Nat) (addr : Word64) (n : Nat) : Option (Space × Nat) :=
  let x := s.ctx cid
  let b := s.blockOf x
  let a := addr.toNat
  let own := b.spanOn (gridOf cid)
  if a < 0x200000 then
    if own.base ≤ a ∧ a + n ≤ own.lim then some (.side (gridOf cid), a) else none
  else if 0x1000000 ≤ a ∧ a < 0x1000000 + 24 * 0x200000 then
    let lg := (a - 0x1000000) / 0x200000
    let o := (a - 0x1000000) % 0x200000
    let g := 24 * clusterOf (gridOf cid) + (s.cluster (clusterOf (gridOf cid))).map.getD lg 0
    match b.span? g with
    | some sp => if sp.base + o + n ≤ sp.lim then some (.side g, sp.base + o) else none
    | none => none
  else if b.scrbase ≤ a ∧ a + n ≤ b.scrlim then some (.scratch (dieOf (gridOf cid)), a - 0x10000000)
  else none
/-- A space's bytes. -/
def State.readSpace (s : State) (sp : Space) (off n : Nat) : List Byte :=
  match sp with
  | .side g => s.side.readN (2 ^ 21 * g + off) n
  | .scratch d => s.scratch.readN (2 ^ 27 * d + off) n
/-- The last-writer grid of a word (R206); a word of side memory with no entry names the grid that holds it, as placement
leaves it (R202). -/
def State.writerOf (s : State) (sp : Space) (off : Nat) : Option Nat :=
  match sp with
  | .side g => some ((Tables.get? s.sideWriter ((2 ^ 21 * g + off) / 4)).getD g)
  | .scratch d => Tables.get? s.scratchWriter ((2 ^ 27 * d + off) / 4)
/-- The key of a space's 64-byte line in a read cache. -/
def lineKey : Space → Nat → Nat
  | .side g, off => (2 ^ 21 * g + off) / 64
  | .scratch d, off => 2 ^ 30 + (2 ^ 27 * d + off) / 64
/-- Revoke a grid's ownership of a word (R206 step 2). -/
def State.revoke (s : State) (g : Nat) (sp : Space) (off : Nat) : State :=
  let k := lineKey sp off
  match Tables.get? (s.grid g).rcache k with
  | some l => s.updGrid g fun gr => { gr with rcache := Tables.set k { l with owned := l.owned &&& ~~~(BitVec.ofNat 16 (2 ^ (off % 64 / 4))) } gr.rcache }
  | none => s
/-- The issuing grid's cached copy of the word takes the byte (R206 step 5); a word made invalid by an acquire comes back
only when all four of its bytes are written. -/
def State.cacheByte (s : State) (g : Nat) (sp : Space) (off : Nat) (b : Byte) (whole : Bool) : State :=
  let k := lineKey sp off
  match Tables.get? (s.grid g).rcache k with
  | none => s
  | some l =>
    let w := off % 64 / 4
    if l.valid.getLsbD w || whole then
      let bit := BitVec.ofNat 16 (2 ^ w)
      let nl : RLine := { bytes := l.bytes.set (off % 64) b, valid := l.valid ||| bit, owned := l.owned ||| bit }
      s.updGrid g fun gr => { gr with rcache := Tables.set k nl gr.rcache }
    else s
/-- Watches of a filter on a line whose contents a write changed: removed, their wakes sent (R292). -/
def fireFilter (fl : List FilterEntry) (line : Nat) : List FilterEntry × List (Nat × Nat × Nat) :=
  (fl.filter fun e => e.line != line, (fl.filter fun e => e.line == line).map fun e => (e.cid, e.serial, 0))
/-- Fire the watches of a local line (R292). -/
def State.fireLocal (s : State) (sp : Space) (off : Nat) : State :=
  match sp with
  | .side g =>
    let fl := (fireFilter (s.grid g).filter (off / 64)).1
    let ws := (fireFilter (s.grid g).filter (off / 64)).2
    if ws.isEmpty then s else
      let s1 := s.updGrid g fun gr => { gr with filter := fl }
      { s1 with wakes := s1.wakes ++ ws }
  | .scratch d =>
    let fl := (fireFilter (s.cdie d).filter (off / 64)).1
    let ws := (fireFilter (s.cdie d).filter (off / 64)).2
    if ws.isEmpty then s else
      let s1 := s.updCdie d fun x => { x with filter := fl }
      { s1 with wakes := s1.wakes ++ ws }
/-- Write one byte of a local space at its home for grid g (R206): the byte, the last writer, the previous writer's
ownership, the issuing grid's cached copy. -/
def State.homeByte (s : State) (g : Nat) (sp : Space) (whole : Bool) (off : Nat) (b : Byte) : State :=
  let s1 := match s.writerOf sp off with
    | some w => if w = g then s else s.revoke w sp off
    | none => s
  let s2 := match sp with
    | .side h => { s1 with side := s1.side.put (2 ^ 21 * h + off) b, sideWriter := Tables.set ((2 ^ 21 * h + off) / 4) g s1.sideWriter }
    | .scratch d => { s1 with scratch := s1.scratch.put (2 ^ 27 * d + off) b, scratchWriter := Tables.set ((2 ^ 27 * d + off) / 4) g s1.scratchWriter }
  if sp = .side g then s2 else s2.cacheByte g sp off b whole
/-- Every byte of the word at off is among those written. -/
def wholeWord (bs : List (Space × Nat × Byte)) (sp : Space) (off : Nat) : Bool :=
  (List.range 4).all fun i => bs.any fun e => e.1 == sp && e.2.1 == off / 4 * 4 + i
/-- A store of a grid reaches home (R206): its bytes, then the watches of the lines whose contents it has changed (R292). -/
def State.homeBytes (s : State) (g : Nat) (bs : List (Space × Nat × Byte)) : State :=
  let t := bs.foldl (fun s e => s.homeByte g e.1 (wholeWord bs e.1 e.2.1) e.2.1 e.2.2) s
  let changed := ((bs.map fun e => (e.1, e.2.1 / 64)).eraseDups).filter fun l => s.readSpace l.1 (64 * l.2) 64 != t.readSpace l.1 (64 * l.2) 64
  changed.foldl (fun s l => s.fireLocal l.1 (64 * l.2)) t
/-- The cycles of R198 after which a store of the row is home. -/
def storeDelay (g : Nat) : Space → Nat
  | .side h => if h = g then 8 else 40
  | .scratch _ => 60
/-- The latest of the bytes' delays. -/
def storeDelays (g : Nat) (bs : List (Space × Nat × Byte)) : Nat := bs.foldl (fun n e => max n (storeDelay g e.1)) 0
/-- Queue a store of the row (R206, R218). -/
def State.queueStore (s : State) (cid : Nat) (extra : Nat) (bs : List (Space × Nat × Byte)) : State :=
  if bs.isEmpty then s
  else s.updCtx cid fun x => { x with stores := x.stores ++ [{ bytes := bs, left := s.now cid + 1 + extra, due := s.now cid + 1 + extra + storeDelays (gridOf cid) bs }] }
/-- An earlier store of the row still on its way writes one of these bytes (R218). -/
def Ctx.storeOverlaps (x : Ctx) (sp : Space) (off n : Nat) : Bool :=
  x.stores.any fun st => !st.home && st.bytes.any fun e => e.1 == sp && decide (off ≤ e.2.1) && decide (e.2.1 < off + n)
/-- A byte of a line through the grid's read cache, filling the line on a miss (R205), words that are still valid among them (log entry 111); own side
memory is never cached. -/
def State.fillLine (s : State) (g : Nat) (sp : Space) (off : Nat) : State :=
  let k := lineKey sp off
  let w := off % 64 / 4
  let cur := Tables.get? (s.grid g).rcache k
  if (match cur with | some l => l.valid.getLsbD w | none => false) then s
  else
    let base := off / 64 * 64
    let own := (List.range 16).foldl (fun (acc : BitVec 16) i => if s.writerOf sp (base + 4 * i) = some g then acc ||| BitVec.ofNat 16 (2 ^ i) else acc) 0
    let fresh : RLine := { bytes := s.readSpace sp base 64, valid := 0xFFFF, owned := own }
    s.updGrid g fun gr =>
      let rc := if gr.rcache.length < 1024 ∨ cur.isSome then gr.rcache else gr.rcache.drop 1
      { gr with rcache := Tables.set k fresh rc }
/-- n bytes as a row of grid g reads them (R198, R205), and the state with the lines filled. -/
def State.loadBytes (s : State) (g : Nat) (sp : Space) (off : Nat) : Nat → State × List Byte
  | 0 => (s, [])
  | n + 1 =>
    if sp = .side g then
      let (s2, bs) := s.loadBytes g sp (off + 1) n
      (s2, (s.readSpace sp off 1).headD 0 :: bs)
    else
      let s1 := s.fillLine g sp off
      let b := match Tables.get? (s1.grid g).rcache (lineKey sp off) with | some l => l.bytes.getD (off % 64) 0 | none => 0
      let (s2, bs) := s1.loadBytes g sp (off + 1) n
      (s2, b :: bs)
/-- The bank of a byte of side memory (R200). -/
def bankOf (off : Nat) : Nat := off / 64 % 32
/-- A bank of grid g that a context other than cid holds (R249). -/
def State.bankHeld (s : State) (cid g bank : Nat) : Bool :=
  s.ctxs.any fun e => e.1 != cid && gridOf e.1 == g && e.2.banks.getLsbD bank
/-- The bytes of a store that get home now: their delay is over, no other context holds their bank (R249), and no earlier store
of the row has still to write their word (R218); so the bytes that a store writes of a word come home together (R206). -/
def State.homeNow (s : State) (cid : Nat) (earlier : List Store) (st : Store) (e : Space × Nat × Byte) : Bool :=
  decide (st.left + storeDelay (gridOf cid) e.1 ≤ s.now cid)
    && (match e.1 with | .side g => !s.bankHeld cid g (bankOf e.2.1) | .scratch _ => true)
    && !(earlier.any fun q => q.bytes.any fun o => o.1 == e.1 && o.2.1 / 4 == e.2.1 / 4)
/-- The first of a row's stores that has bytes to come home now: the stores after that, and the bytes. -/
def State.nextHome (s : State) (cid : Nat) : List Store → List Store → Option (List Store × List (Space × Nat × Byte))
  | _, [] => none
  | earlier, st :: rest =>
    let go := st.bytes.filter (s.homeNow cid earlier st)
    if go.isEmpty then s.nextHome cid (earlier ++ [st]) rest
    else
      let stay := st.bytes.filter fun e => !s.homeNow cid earlier st e
      some (earlier ++ { st with bytes := stay, home := stay.isEmpty } :: rest, go)
/-- A context lets its bank mask go (R249). -/
def State.releaseBanks (s : State) (cid : Nat) : State :=
  let m := (s.ctx cid).banks
  if m = 0 then s
  else (s.updCtx cid fun x => { x with banks := 0 }).updGrid (gridOf cid) fun g =>
    { g with freed := (g.freed.filter fun e => e.1 == g.clk) ++ [(g.clk, cid, m)] }
/-- An acquire: every unowned word of the grid's read cache goes (R205, R224), and a line with no word left (log entry 111). -/
def State.acquire (s : State) (g : Nat) : State :=
  s.updGrid g fun gr => { gr with rcache := gr.rcache.filterMap fun e =>
    if e.2.valid &&& e.2.owned = 0 then none else some (e.1, { e.2 with valid := e.2.valid &&& e.2.owned }) }

/-! ### The Baton (R112, R276) -/

/-- The slots of a physical row in cyclic order after slot n. -/
def cyclicAfter (n : Nat) : List Nat := [(n + 1) % 4, (n + 2) % 4, (n + 3) % 4, n % 4]
/-- A context's loop has shed and waits to step again (R117). -/
def Ctx.shedLoop (x : Ctx) : Bool := match x.loop with | some l => l.shed && !l.halted | none => false
/-- The context of a slot is Baton-pending: for its next instruction, or for a loop that has shed (R112, R117). -/
def State.pendingBaton (s : State) (p sl : Nat) : Bool :=
  match s.ctx? (4 * p + sl) with | some x => x.batonPending || x.shedLoop | none => false
/-- The Baton goes from a holder, if any, to slot t: pending contexts that it passes over count the move, and every other count starts
anew, since only successive moves add up (R276). -/
def State.moveBaton (s : State) (p : Nat) (pend : List Nat) (h : Option Nat) (t : Nat) : State :=
  let s1 := s.updRow p fun r => { r with baton := some t, lastBaton := h.or r.lastBaton }
  [0, 1, 2, 3].foldl (fun (s : State) sl => s.updCtx (4 * p + sl) fun x =>
    { x with batonPassed := if sl ≠ t ∧ pend.contains sl then x.batonPassed + 1 else 0 }) s1
/-- A pending context that four successive moves have passed over (R276). -/
def State.starvedBaton (s : State) (p : Nat) (pend : List Nat) : Option Nat := pend.find? fun sl => decide (4 ≤ (s.ctx (4 * p + sl)).batonPassed)
/-- Move the Baton on from its holder: to a pending context passed over four times, else where bpass aimed it, else to the
first pending context in cyclic order; with none pending the holder keeps it (R112, R276). What bpass aimed is spent by this move, whatever made the
holder give the Baton up, and also where no context is pending (log entry 109). -/
def State.passBaton (s : State) (p : Nat) (keep : Bool) : State :=
  let r := s.prow p
  match r.baton with
  | none => s
  | some h =>
    let pend := (cyclicAfter h).filter fun sl => sl != h && s.pendingBaton p sl
    let aimed := match (s.ctx (4 * p + h)).bpassTo with
      | some t => if pend.contains t ∧ (s.ctx (4 * p + t)).blk = (s.ctx (4 * p + h)).blk then some t else none
      | none => none
    match ((s.starvedBaton p pend).or aimed).or pend.head? with
    | some t => (s.moveBaton p pend (some h) t).updCtx (4 * p + h) fun x => { x with bpassTo := none }
    | none =>
      let s1 := s.updCtx (4 * p + h) fun x => { x with bpassTo := none }
      if keep then s1 else s1.updRow p fun r => { r with baton := none, lastBaton := some h }

/-! ### Taking a trap (R326 to R329) -/

/-- Settled entries that a block owns are freed (R279). -/
def State.freeOwned (s : State) (b : Nat) : State :=
  let hs := s.clusters.flatMap fun c => c.2.futures.filterMap fun e =>
    if e.2.owner = some b ∧ 2 ≤ e.2.state then some (mkHandle c.1 e.1 e.2.gen) else none
  hs.foldl (fun s h => s.freeFuture h) s
/-- Pending software futures that a block owns. -/
def State.softPending (s : State) (b : Nat) : List Word32 :=
  s.clusters.flatMap fun e => e.2.futures.filterMap fun fe =>
    if fe.2.kind = 0 ∧ fe.2.state = 1 ∧ fe.2.owner = some b then some (mkHandle e.1 fe.1 fe.2.gen) else none
/-- The rest of a block's life ends: every row stops, its software futures are cancelled, it retires as failed (R329). -/
def State.stopBlock (s : State) (b : Nat) : State :=
  let mine := (s.ctxs.filter fun e => e.2.blk == b).map (·.1)
  let s0 := mine.foldl (fun (s : State) cid => (s.releaseBanks cid).returnBuckets (gridOf cid) (s.ctx cid).granted) s
  let s1 := s0.mapCtxs fun _ x => if x.blk = b then { x with done := true, leaving := false, parked := none, pendingTrap := none, request := none, repollAt := none, granted := 0, batonPending := false } else x
  let s2 := (s1.softPending b).foldl (fun (s : State) h => s.settle h 4 0 9) s1
  s2.updBlock b fun x => { x with phase := .aborting, takers := [], requests := [] }
/-- A block is anchored no longer: the cluster closed for it opens again (R57). -/
def State.unanchor (s : State) (m b : Nat) : State :=
  if (s.mdie m).anchor = some b then
    { s.updMdie m (fun x => { x with anchor := none }) with
      clusters := s.clusters.map fun (e : Nat × Cluster) => if e.2.closed = some m then (e.1, { e.2 with closed := none }) else e }
  else s
/-- A block that is in a ready list, saved or never placed, retires as failed (R329): it leaves the list and stops being anchored, its
software futures are cancelled, its settled entries freed. -/
def State.dropReady (s : State) (b : Nat) (x : Block) : State :=
  let s1 := (s.updMdie x.bin fun m => { m with ready := m.ready.filter (· != b) }).unanchor x.bin b
  let s2 := s1.updBlock b fun y => { y with phase := .retired, image := none, imageMem := [], imageTiles := [], imageBanks := [], imageLeat := [], imageRel := [], savedAt := none, spans := [], rows := []
                                            hasRange := false, lo := 0, hi := 0, takers := [], requests := [] }
  ((s2.softPending b).foldl (fun (s : State) h => s.settle h 4 0 9) s2).freeOwned b
/-- A task fails (R34, R329), with the first status and cause found; so its replay's completion word has those of the first of its tasks to fail,
of which no rule speaks where several do (log entry 116): its completion future fails with cause 0x06 and, with no successors to start, is freed (R280), its held records and their futures go (R41,
R46), its blocks stop, those not placed leave the ready lists, its replay is to end with the status. -/
def State.failTask (s : State) (t : Nat) (status cause : Nat) : State :=
  match s.task? t with
  | none => s
  | some tk =>
    if tk.failed.isSome then s
    else
      let s1 := s.setTask t { tk with failed := some (status, cause) }
      let dropped := s1.journal.filter fun h => h.task == t
      let s2 := { s1 with journal := s1.journal.filter fun h => h.task != t }
      let s3 := dropped.foldl (fun (s : State) h => match h.fut with | some hd => s.settle hd 3 7 9 | none => s) s2
      let mine := s3.blocks.filter fun e => e.2.task == t
      let s4 := mine.foldl (fun (s : State) e => match e.2.phase with
        | .ready | .saved => s.dropReady e.1 e.2
        | .resident | .draining _ | .stopping _ => s.stopBlock e.1
        | _ => s) s3
      let s5 := match tk.fut with
        | some h => if tk.hdr.succ.isEmpty then (s4.settle h 3 0 6).freeFuture h else s4.settle h 3 0 6
        | none => s4
      match tk.replay with
      | some r => s5.updReplay r fun rp => { rp with failed := if rp.failed.isSome then rp.failed else some (status, cause) }
      | none => s5
/-- A block aborts with a cause (R328, R329). -/
def State.abortBlock (s : State) (b cause : Nat) : State :=
  match s.block? b with
  | none => s
  | some x => ((s.setBlock b { x with failed := some cause }).stopBlock b).failTask x.task 5 cause

/-- The captured instruction of R86. -/
def captured (i : Instr) : Trap :=
  let w := (encode i).getD 0
  let by_ (n : Nat) : Byte := BitVec.ofNat 8 (field w n 8)
  if i.len = 4 then { op := BitVec.ofNat 64 w, d := by_ 8, a := by_ 16, b := by_ 24 }
  else { op := BitVec.ofNat 64 (w % 2 ^ 64), lit := BitVec.ofNat 32 (w >>> 64), d := by_ 10, a := by_ 18, b := by_ 26, c := by_ 34 }
/-- The lanes that trapmask reports: those found with the cause, or of cause 0x01 m0 and the guard as entry finds them (R86, R326). -/
def Trap.lanes (t : Trap) (x : Ctx) : Word32 :=
  match t.ill with
  | some (g, inv) => x.mask 0 &&& (if inv then ~~~x.mask g else x.mask g)
  | none => t.mask
/-- Entry into the handler once nothing of the context is in flight (R326): the trap registers, m0, the Handling bit, the
latches and the loop buffer, the PC; with no vector the block aborts (R329). -/
def State.enterTrap (s : State) (cid : Nat) (t : Trap) : State :=
  let x := s.ctx cid
  let y := { x with
    trapcause := BitVec.ofNat 8 t.cause, trappc := t.pc, trapem := (x.mask 0).setWidth 64, trapmask := t.lanes x, trapaddr := t.addr
    trapfut := t.fut, trapop := t.op, traplit := t.lit, trapd := t.d, trapa := t.a, trapb := t.b, trapc := t.c, pendingTrap := none, wrapped := false }
  let vec := if t.cause = 1 ∧ x.emuvec ≠ 0 then x.emuvec else x.trapvec
  if vec = 0 then (s.setCtx cid y).abortBlock x.blk t.cause
  else
    (s.setCtx cid { y.setM 0 0xFFFFFFFF#32 with handling := true, pc := vec, stage := .fresh, going := none, woken := none, notBefore := s.now cid + 2 }).updRow (rowOf cid)
      fun r => { r with valid := 0, buf := none }
/-- TakeTrap (R326): the chain ends and the buckets go back; a trap inside a handler aborts the block; entry waits for the
results in flight. -/
def State.takeTrap (s : State) (cid : Nat) (t : Trap) : State :=
  let x := s.ctx cid
  let s1 := (s.updRow (rowOf cid) fun r => { r with chain := none, chainStall := 0 }).returnBuckets (gridOf cid) x.granted
  let s2 := s1.updCtx cid fun x => { x with granted := 0, request := none, batonPending := false }
  if x.handling then s2.abortBlock x.blk t.cause
  else if x.inflight.isEmpty then s2.enterTrap cid t
  else s2.updCtx cid fun x => { x with pendingTrap := some t }
/-- tret inside a handler (R333). -/
def State.leaveTrap (s : State) (cid : Nat) : State :=
  (s.updCtx cid fun x => { x.setM 0 (x.trapem.setWidth 32) with pc := x.trappc, handling := false }).updRow (rowOf cid)
    fun r => { r with valid := 0 }

end Sys2Proof.Machine
end

