-- ==== Sys2Proof/Machine/Operands.lean ====
section
/-! DEFINITION. Every operand form: scalar sources (R72 to R75), vector sources with the ports and the latches (R74, R257),
the registers an instruction names for its scoreboard (R106), and vector results written, captured or pushed (R80, R174). -/
namespace Sys2Proof.Machine

/-- The integer constants of R75. -/
def constInt (n : Nat) : Int :=
  match n with
  | 0 => 1 | 1 => 2 | 2 => 4 | 3 => 8 | 4 => 16 | 5 => 32 | 6 => 64 | 10 => -1 | 12 => 3 | 13 => 5 | 14 => 7 | _ => 0
/-- The float constants of R75, as sign, significand and exponent. -/
def constFloat (n : Nat) : FVal :=
  match n with
  | 7 => .fin false 1 (-1) | 8 => .fin false 1 0 | 9 => .fin false 2 0 | 11 => .fin true 1 0
  | n => .fin (decide (constInt n < 0)) (constInt n).natAbs 0
/-- An element repeated into every packed place of a lane. -/
def replicateElem (w x : Nat) : Nat := (List.range (32 / w)).foldl (fun acc i => acc + (x % 2 ^ w) * 2 ^ (w * i)) 0
/-- A constant in a vector operand of a type (R75). -/
def constTyped (t : Ty) (n : Nat) : Word32 :=
  if tyFloat t then BitVec.ofNat 32 (replicateElem (tyWidth t) (roundF (fpOf t) 0 false (constFloat n)).1)
  else BitVec.ofNat 32 (replicateElem (min 32 (tyWidth t)) (wrap (min 32 (tyWidth t)) (constInt n)))
/-- An integer type of the width of a type: the reading of an integer operand under a float mod (R75, R183). -/
def intLike : Ty → Ty
  | .f32 => .i32 | .f16 | .bf16 => .i16 | t => t
/-- A constant in a vector operand (R75). -/
def constLane (k : Kind) (ty : Ty) (src : Option Ty) (n : Nat) : Word32 :=
  match k with
  | .byMod => constTyped ty n
  | .int => constTyped (intLike ty) n
  | .float => constTyped ty n
  | .untyped => if constIsInt n then constTyped .i32 n else constTyped .f32 n
  | .srcType => constTyped (src.getD .i32) n

/-- A scalar source (R72 to R75); i64 says that the entry reads it as i64 whatever mod holds. -/
def scalarOf (x : Ctx) (f : Fields) (i64 : Bool) (o : Operand) : Word64 :=
  match o with
  | .s n => x.sreg n.val
  | .const n => word64 (constInt n.val)
  | .lit => if !i64 && !tySigned f.mod && tyInt f.mod then (litOf f).setWidth 64 else (litOf f).signExtend 64
  | _ => 0
/-- A vector source in every lane, given the popped word of pn and the row's latches (R73, R74). -/
def vectorOf (x : Ctx) (r : PhysRow) (pn : Lanes) (f : Fields) (k : Kind) (o : Operand) : Lanes :=
  match o with
  | .v n => x.vreg n.val
  | .s n => Lanes.all ((x.sreg n.val).setWidth 32)
  | .latch n => r.latches.toArray.toList.getD n.val Lanes.zero
  | .pn => pn
  | .laneid => tab 32 fun l => BitVec.ofNat 32 l
  | .const n => Lanes.all (constLane k f.mod (tyOf (byteOf f.b)) n.val)
  | .lit => Lanes.all (litOf f)
  | _ => Lanes.zero

/-! ### What an instruction names -/

/-- A piece of a context that an instruction names (R106). -/
inductive Reg
  | v (n : Nat) | s (n : Nat) | m (n : Nat) | latch (n : Nat) | acc (n : Nat) | flags | pn
  deriving DecidableEq, Repr

/-- What an operand field reads, by its class. -/
def clsReads (cls : Cls) (o : Operand) : List Reg :=
  match cls, o with
  | .raw, _ | .unused, _ | .vdst, _ | .maskDst, _ | .acc, _ => []
  | .mask, .v n => if n.val < 15 then [.m n.val] else []
  | _, .v n => [.v n.val]
  | _, .s n => [.s n.val]
  | _, .latch n => [.latch n.val]
  | .vsrc _, .pn => [.pn]
  | _, _ => []
/-- What an operand field writes, by its class. -/
def clsWrites (cls : Cls) (o : Operand) : List Reg :=
  match cls, o with
  | .vdst, .v n | .vreg, .v n => [.v n.val]
  | .maskDst, .v n => [.m n.val]
  | .sreg _, .s n | .sregOpt, .s n => [.s n.val]
  | _, _ => []
/-- d is read: stores, ast, and instructions that change their destination. -/
def dIsSource (op : Nat) : Bool := op == 0x91 || op == 0x93 || op == 0x28 || op == 0x38 || op == 0xA2 || op == 0xA3
/-- Scalar registers in a row. -/
def sregs (o : Operand) (n : Nat) : List Reg :=
  match o with | .s k => (List.range n).map fun i => .s (k.val + i) | _ => []
/-- Registers that instruction op with fields f reads, in field order d, a, b, c (R85), then those it reads by its entry:
shape blocks (R229), record arguments (R47), lnk and ssp (R172), fpflags (R132), accumulators (R272). -/
def readsOf (op : Nat) (f : Fields) : List Reg :=
  match desc op with
  | none => []
  | some e =>
    let multi := if 0xB0 ≤ op && op ≤ 0xB4 then sregs f.a 8 else if op == 0xE0 || op == 0xE1 then sregs f.a 6 else clsReads e.a f.a
    let accs := if op == 0xC4 || (op == 0xC3 && !f.fn.getLsbD 4) then (List.range (f.fn.toNat % 16 + 1)).map fun i => Reg.acc (byteOf f.d + i) else []
    let vset := if op == 0xC3 then (if f.fn.getLsbD 4 then (match f.a with | .v n => (List.range (f.fn.toNat % 16 + 1)).map fun i => Reg.v (n.val + i) | _ => []) else []) else multi
    let merges := (op == 0x80 && decide (tyPerLane ((tyOf (byteOf f.b)).getD .i8) < tyPerLane f.mod)) || op == 0x81
    accs ++ (if merges then clsReads .vreg f.d else [])
      ++ (if dIsSource op then clsReads (match e.d with | .sreg _ => .sreg 159 | c => c) f.d else [])
      ++ vset ++ (if op == 0xC0 then [] else clsReads e.b f.b) ++ (if op == 0x81 then [] else clsReads e.c f.c)
      ++ (if op == 0x95 || op == 0x96 || op == 0x97 || op == 0x98 then [.s 159] else [])
      ++ (if op == 0x05 && sysIndex f == 0x023 then [.flags] else [])
/-- Registers it writes. -/
def writesOf (op : Nat) (f : Fields) : List Reg :=
  match desc op with
  | none => []
  | some e =>
    let n := f.fn.toNat % 16 + 1
    (if op == 0x91 || op == 0x93 then [] else clsWrites e.d f.d)
      ++ (if op == 0xC0 then clsWrites .sregOpt f.b else if op == 0x81 then clsWrites e.b f.b ++ clsWrites .maskDst f.c else [])
      ++ (if f.capture then [.latch f.latch.toNat] else [])
      ++ (if op == 0x95 || op == 0x96 || op == 0x97 || op == 0x98 then [.s 159] else [])
      ++ (if op == 0x35 || op == 0x36 then [.s 158] else [])
      ++ (if op == 0xD2 then (match f.d with | .s k => [.s (k.val + 1)] | _ => []) else [])
      ++ (if op == 0xC2 || (op == 0xC3 && f.fn.getLsbD 4) then (List.range n).map fun i => Reg.acc (byteOf f.d + i) else [])
      ++ (if op == 0xC3 && !f.fn.getLsbD 4 then (match f.a with | .v k => (List.range n).map fun i => Reg.v (k.val + i) | _ => []) else [])
      ++ (if op == 0x06 && sysIndex f == 0x023 then [.flags] else [])
/-- The masks an instruction acts under: m0 and the guard (R76, R166), m0 of bmz and bmnz (R162); m0 that tret sets (R333). -/
def maskReads (op : Nat) (f : Fields) : List Reg :=
  if op = 0x32 ∨ op = 0x33 ∨ op = 0x03 then [.m 0]
  else match desc op with
  | some e => if e.laneTime then [.m 0, .m f.guard.toNat] else []
  | none => []
/-- The accumulators that mloop and mstep name: F to F + G − 1, or D (R263, R264, R271). -/
def loopAccs (x : Ctx) (op : Nat) (f : Fields) : List Reg :=
  let w := scalarOf x f false f.a
  if op = 0xC0 then (List.range (bitsOf w 19 16 + 1)).map fun i => .acc (byteOf f.d % 16 + bitsOf w 7 4 + i)
  else if op = 0xC1 then [.acc (byteOf f.d % 16)] else []
/-- Those whose values the loop adds to: none when it sets them to zero first (R267). -/
def loopReads (x : Ctx) (op : Nat) (f : Fields) : List Reg := if (scalarOf x f false f.a).getLsbD 1 then [] else loopAccs x op f
/-- Registers that reading of a mark does not wait for (R281). -/
def handleRead (op : Nat) : Bool := op == 0xD1 || op == 0xD2 || op == 0xD3 || op == 0xD4 || op == 0xD5 || op == 0xD6

/-- Registers that a result in flight will write (R106). -/
def InFlight.regs (r : InFlight) : List Reg :=
  (r.writes.map fun w => match w with
    | .v n _ _ => Reg.v n | .s n _ => .s n | .m n _ => .m n | .latch n _ => .latch n | .acc n _ _ => .acc n)
/-- A result in flight writes one of these. -/
def Ctx.awaits (x : Ctx) (rs : List Reg) : Bool := x.inflight.any fun r => r.regs.any rs.contains
/-- A capture in flight of another context of the physical row, whose latches the four share, writes one of these (R106, R111). -/
def State.latchAwaits (s : State) (cid : Nat) (rs : List Reg) : Bool :=
  (rs.any fun r => match r with | .latch _ => true | _ => false) && s.ctxs.any fun e =>
    rowOf e.1 == rowOf cid && e.1 != cid && e.2.inflight.any fun r => r.writes.any fun w => match w with | .latch n _ => rs.contains (.latch n) | _ => false
/-- fpflags waits for the instructions in flight that can set a flag (R132). -/
def flagsWait (x : Ctx) (rs : List Reg) : Bool := rs.contains .flags && x.inflight.any (·.canFlag)

/-! ### Ports (R256 to R260) -/

/-- A vector field names pn. -/
def namesPn (op : Nat) (f : Fields) : Bool :=
  match desc op with
  | none => false
  | some e =>
    let n (c : Cls) (o : Operand) : Bool := match c with | .vsrc _ => o == .pn | _ => false
    n e.a f.a || n e.b f.b || n e.c f.c
/-- The result goes to ps: with nowb and capture it goes to the latch only (R80, R257). -/
def pushes (f : Fields) : Bool := f.d == .ps && !(f.nowb && f.capture)
/-- The destination is ps. -/
def namesPs (op : Nat) (f : Fields) : Bool :=
  match desc op with
  | none => false
  | some e => e.d == .vdst && f.d == .ps
/-- The context of the row above in the same band, by its place in the block (R259). -/
def State.above (s : State) (x : Ctx) : Option Nat :=
  if x.rowid = 0 then none else (s.blockOf x).rows[x.k - 1]?
/-- The row is its band's last (R259). -/
def State.bottom (s : State) (x : Ctx) : Bool := x.rowid + 1 == (s.blockOf x).hdr.rows
/-- The hand-off latency of R3 and the entries of the edge link of R260 between two contexts. -/
def handoff (a b : Nat) : Nat × Nat :=
  if gridOf a = gridOf b then (1, 0)
  else if posOf (gridOf a) / 12 = posOf (gridOf b) / 12 then (4, 4) else (12, 12)
/-- Cycles of a grid that this die cycle still has to bring. -/
def State.toCome (s : State) (g : Nat) : Nat := (s.agenda.filter fun a => a == .cycle g).length
/-- The clock of grid h in the cycle that grid g is in: of the cycles that one die cycle brings the last of h goes with the last of g, the one before it
with the one before, whichever the step takes first; the spec leaves this open where their numbers differ (log entry 91). -/
def State.clkFrom (s : State) (g h : Nat) : Nat := (s.grid h).clk + s.toCome h - s.toCome g
/-- The entry that a pop of the row above reads now: the cells, when one may be popped (R258, R260). The cycles of a link are the
producer's (log entry 91). -/
def State.popReady (s : State) (cid : Nat) : Option (Tbl Cell) :=
  let x := s.ctx cid
  match s.above x with
  | none => none
  | some a =>
    let p := (s.ctx a).port
    if gridOf a = gridOf cid then (if p.full && decide (p.pushed + 1 ≤ s.now a) then some p.cells else none)
    else match p.link with
      | (t, cells) :: _ => if t ≤ s.clkFrom (gridOf cid) (gridOf a) then some cells else none
      | [] => none
/-- Take that entry: a register's full bit clears and its data stays; a link's oldest entry goes (R256, R260). -/
def State.popTake (s : State) (cid : Nat) : State :=
  match s.above (s.ctx cid) with
  | none => s
  | some a => s.updCtx a fun x =>
    if gridOf a = gridOf cid then { x with port := { x.port with full := false } }
    else { x with port := { x.port with link := x.port.link.drop 1 } }
/-- A push can proceed (R258): at the bottom always; else when the register is clear. -/
def State.pushReady (s : State) (cid : Nat) : Bool :=
  let x := s.ctx cid
  s.bottom x || !x.port.full
/-- Cell j of a register. -/
def Port.cell (p : Port) (j : Nat) : Cell := (Tables.get? p.cells j).getD ⟨List.replicate 32 0, 0⟩
def cellAt (t : Tbl Cell) (j : Nat) : Cell := (Tables.get? t j).getD ⟨List.replicate 32 0, 0⟩
/-- Push whole cells; at the bottom of a band nothing is stored (R259). -/
def State.pushCells (s : State) (cid : Nat) (cells : Tbl Cell) : State :=
  if s.bottom (s.ctx cid) then s
  else s.updCtx cid fun x => { x with port := { x.port with cells := cells, full := true, pushed := s.now cid } }
/-- Push a vector's active lanes into bytes 0 to 3 of their cells (R257). -/
def State.pushLanes (s : State) (cid : Nat) (val : Lanes) (mask : Word32) : State :=
  let p := (s.ctx cid).port
  let cells : Tbl Cell := (List.range 32).map fun j =>
    let c := p.cell j
    (j, if mask.getLsbD j then { c with data := leBytes 4 (val.get j).toNat ++ c.data.drop 4 } else c)
  s.pushCells cid cells
/-- The word of pn in every lane (R257). -/
def popLanes (cells : Tbl Cell) : Lanes := tab 32 fun l => BitVec.ofNat 32 (leNat ((cellAt cells l).data.take 4))
/-- What the popped entry gives, whether or not the instruction names pn. -/
def State.pnLanes (s : State) (cid : Nat) : Lanes := match s.popReady cid with | some c => popLanes c | none => Lanes.zero

/-- The row issues nothing further until its checks have passed (R199). -/
def State.checked (s : State) (cid : Nat) : State := s.updCtx cid fun x => { x with notBefore := s.now cid + 2 }
/-- The destination as it stands: what inactive lanes keep (R80, R174, R257). -/
def State.oldDest (s : State) (cid : Nat) (f : Fields) : Lanes :=
  match f.d with
  | .v n => (s.ctx cid).vreg n.val
  | .ps => tab 32 fun l => BitVec.ofNat 32 (leNat (((s.ctx cid).port.cell l).data.take 4))
  | _ => Lanes.zero
/-- Deliver a vector result: pop and push now (R258), the register write, the capture, the flags and the buckets with the
result (R80, R106, R115, R174). -/
def State.vectorResult (s : State) (cid : Nat) (f : Fields) (lat : Nat) (val : Lanes) (mask : Word32) (flags : BitVec 5)
    (buckets : Nat) (extra : List RegWrite) (queued canFlag : Bool) : State :=
  let old := s.oldDest cid f
  let full := tab 32 fun l => if mask.getLsbD l then val.get l else old.get l
  let s1 := if pushes f then s.pushLanes cid val mask else s
  let wv := match f.d with
    | .v n => if f.nowb then [] else [RegWrite.v n.val val mask]
    | _ => []
  let wl := if f.capture then [RegWrite.latch f.latch.toNat full] else []
  s1.launch cid lat (wv ++ wl ++ extra) flags buckets queued canFlag

end Sys2Proof.Machine
end

