-- ==== Sys2Proof/Machine/Issue.lean ====
section
/-! DEFINITION. Issuing one instruction: the checks and the stalls in the order of R85, the prices of R115, what a context
posts while it waits (R112, R114), and what issuing does to its physical row (R107, R110, R111). -/
namespace Sys2Proof.Machine

/-- How a meaning ends at its row's issue port. -/
inductive Res
  /-- its effect has taken place; the next instruction follows -/
  | done (s : State)
  /-- its effect has taken place; the next instruction is elsewhere -/
  | jump (s : State) (pc : Word64)
  /-- it waits, having come as far as the stage says -/
  | stay (st : Stage)
  /-- it has issued and waits to complete, having come as far as the state and the stage say -/
  | hold (s : State) (st : Stage)
  /-- it parks, having come as far as the state and the stage say (R283) -/
  | park (s : State) (w : Wait) (st : Stage)
  /-- it traps -/
  | trap (cause : Nat) (mask : Word32) (addr : Word64) (fut : Word64)
  /-- it traps, the state having changed as given -/
  | trapWith (s : State) (cause : Nat) (mask : Word32) (addr : Word64) (fut : Word64)

/-- The verdict of the checks before a meaning runs (R85). -/
inductive Verdict
  | wait
  /-- all is ready but the buckets, the Baton, or both (R112, R114) -/
  | want (price : Nat) (baton : Bool)
  | park (h : Word32)
  /-- an acquire comes first: one still owed (R303), or the join of these registers (R306) -/
  | join (ns : List Nat)
  | trap (cause : Nat) (addr : Word64) (fut : Word64)
  deriving DecidableEq, Repr

/-- Buckets of an instruction (R115). -/
def priceOf (s : State) (cid op : Nat) (_f : Fields) : Nat :=
  if 0x50 ≤ op ∧ op ≤ 0x5F then 1
  else if op = 0x68 ∨ op = 0x69 then 1
  else if 0x63 ≤ op ∧ op ≤ 0x65 ∨ op = 0x6A then 3
  else if 0x60 ≤ op ∧ op ≤ 0x6E then 2
  else if 0x70 ≤ op ∧ op ≤ 0x7A then 1
  else if 0x80 ≤ op ∧ op ≤ 0x83 then 2
  else if 0x84 ≤ op ∧ op ≤ 0x8C then 4
  else if op = 0xA5 ∨ op = 0xA7 ∨ op = 0xA8 ∨ op = 0xA9 then 1
  else if op = 0xA6 then max 1 (popcount (s.ctx cid).banks)
  else if 0xB0 ≤ op ∧ op ≤ 0xB5 then 1
  else if op = 0xC3 ∨ op = 0xC4 then 1
  else if op = 0xC0 ∨ op = 0xC1 then
    let gr := s.grid (gridOf cid)
    let m := gr.cadence
    (16 + m - 1) / m
  else 0

/-- Slots an instruction names, with the state each must be in to issue: none where the state does not matter (R242, R243,
R265). -/
def slotsOf (s : State) (cid op : Nat) (f : Fields) : List (Nat × Option Nat) :=
  let x := s.ctx cid
  if op = 0xB3 ∨ op = 0xB1 ∧ f.mod ≠ .i8 then [((scalarOf x f false f.b).toNat, some 0)]
  else if op = 0xB4 then [((scalarOf x f false f.b).toNat, some 2)]
  else if op = 0xB7 then [((scalarOf x f false f.a).toNat, some 2)]
  else if op = 0xC0 ∨ op = 0xC1 then
    let w := scalarOf x f false f.a
    let top := w.getLsbD 2 || x.rowid == 0
    let bs := bitsOf w 63 56
    let ring := if op = 0xC0 then (List.range (bitsOf w 55 51 + 1)).map fun i => (if bs > 31 then bs else (bs + i) % 32, if i = 0 then some 2 else none) else [(bs, some 2)]
    (bitsOf w 50 46, some 2) :: (if top then ring else [])
  else []
/-- A slot as it stood at the start of the grid's cycle, by which slot moves are decided (R243), and as it stands. -/
def State.tileSeen (s : State) (g n : Nat) : Tile := (Tables.get? (s.grid g).seen n).getD {}
def State.tile (s : State) (g n : Nat) : Tile := (Tables.get? (s.grid g).tiles n).getD {}
/-- The instruction moves the slot that it names out of its state (R242). -/
def movesSlot (op : Nat) : Bool := op == 0xB1 || op == 0xB3 || op == 0xB4 || op == 0xB7
/-- The slot is in the state: at the start of the cycle, and for a move also still, no other move having come first (R243). -/
def State.slotIn (s : State) (op g n st : Nat) : Bool :=
  (s.tileSeen g n).state == st && (!movesSlot op || (s.tile g n).state == st)
/-- The block of a context owns a slot of its grid (R243). -/
def State.ownsSlot (s : State) (cid n : Nat) : Bool :=
  decide (n < 32) && (s.tileSeen (gridOf cid) n).owner == some (s.ctx cid).blk
/-- Slots a loop still has to read (R243, R268). -/
def Loop.pins (l : Loop) : List Nat :=
  if l.doneAt.isSome ∨ l.k ≥ l.ksteps then []
  else bitsOf l.word 50 46 :: (if l.top then (List.range (l.ksteps - l.k)).map fun i => (bitsOf l.word 63 56 + ((l.k + i) % (bitsOf l.word 55 51 + 1))) % 32 else [])
/-- Some loop of the grid still has to read the slot (R243), other than one given by its context and issue cycle. -/
def State.pinnedBut (s : State) (g n : Nat) (but : Option (Nat × Nat)) : Bool :=
  s.ctxs.any fun e => gridOf e.1 == g && (match e.2.loop with | some l => l.pins.contains n && but != some (e.1, l.issued) | none => false)
def State.pinned (s : State) (g n : Nat) : Bool := s.pinnedBut g n none

/-- Loop and step words whose check raises cause 0x01 at issue (R265, R271). -/
def badWord (s : State) (cid op : Nat) (f : Fields) : Bool :=
  let w := scalarOf (s.ctx cid) f false f.a
  if op = 0xC0 then
    bitsOf w 31 20 == 0 || w.getLsbD 0 || bitsOf w 36 32 != 0
      || decide (16 < (byteOf f.d % 16 + bitsOf w 7 4) + (bitsOf w 19 16 + 1))
  else if op = 0xC1 then
    bitsOf w 55 51 != 0 || bitsOf w 31 20 != 0 || bitsOf w 15 3 != 0 || w.getLsbD 0 || bitsOf w 36 32 != 0
  else false

/-- Accumulators an unfinished loop or step writes (R263). -/
def Ctx.busyAcc (x : Ctx) (n : Nat) : Bool :=
  match x.loop with | some l => decide (l.first ≤ n) && decide (n < l.first + l.groups) | none => false
/-- Whether the loop in flight owns the context's ports (R263). -/
def Ctx.loopOwnsPorts (x : Ctx) : Bool := match x.loop with | some l => !l.word.getLsbD 2 | none => false
/-- Stores the instruction adds to the 16 of R218. -/
def storesOf (op : Nat) (f : Fields) : Nat :=
  if op = 0x91 ∨ op = 0x93 ∨ op = 0x95 ∨ op = 0x97 ∨ (0xA0 ≤ op ∧ op ≤ 0xA3) then 1
  else if op = 0xC4 then f.fn.toNat % 16 + 1 else 0
/-- A future entry for the block can be taken (R279). -/
def State.futureFree (s : State) (cid : Nat) : Bool :=
  let b := s.blockOf (s.ctx cid)
  let cl := s.cluster (clusterOf (gridOf cid))
  (decide (cl.ownedBy (s.ctx cid).blk < b.reserve) || decide (cl.sharedUsed < 4096)) && cl.freeEntry.isSome
/-- The instruction allocates an engine future at issue (R228, R266, R47). -/
def takesFuture (op : Nat) (f : Fields) : Bool :=
  (0xB0 ≤ op && op ≤ 0xB5) || (op == 0xC0 && f.b != .zero) || ((op == 0xE0 || op == 0xE1) && !f.nowb)

/-- The stalls of R106 other than results in flight, pending marks, the Baton and buckets. -/
def stalls (s : State) (cid op : Nat) (f : Fields) : Bool :=
  let x := s.ctx cid
  let g := gridOf cid
  let ports := namesPn op f || namesPs op f
  (namesPn op f && (s.popReady cid).isNone) || (namesPs op f && pushes f && !s.pushReady cid) || (ports && x.loopOwnsPorts)
    || ((slotsOf s cid op f).any fun e => match e.2 with
        | some st => !s.slotIn op g e.1 st || ((op == 0xB4 || op == 0xB7) && s.pinned g e.1)
        | none => false)
    || (0x84 ≤ op && op ≤ 0x8C && decide (4 ≤ (s.prow (rowOf cid)).sfuQueue.length))
    || (decide (0 < storesOf op f) && decide (16 < x.stores.length + storesOf op f))
    || ((readsOf op f ++ writesOf op f).any fun r => match r with | .acc n => x.busyAcc n | _ => false)
    || (0xB0 ≤ op && op ≤ 0xB5 && decide (64 ≤ (s.grid g).leat.length))
    || (takesFuture op f && !s.futureFree cid)
    || ((op == 0xC0 || op == 0xC1) && x.loop.isSome)

/-- What an acquire waits for: every load and atomic of the row landed (R224). -/
def loadsLanded (x : Ctx) : Bool := x.inflight.all fun r => r.loadAddr.isNone
/-- The context is at rest: nothing lets it look at its next instruction in this cycle. -/
def resting (x : Ctx) (now : Nat) : Bool :=
  x.done || x.leaving || x.held || x.parked.isSome || x.pendingTrap.isSome || decide (now < x.notBefore)
    || (match x.repollAt with | some t => now != t | none => false)
/-- Latches valid to this context: the row clears them when another context issued last (R111). -/
def validLatches (r : PhysRow) (plane : Nat) : BitVec 8 := if r.lastIssued = some plane then r.valid else 0
/-- Latches it reads are valid (R111). -/
def latchLost (rs : List Reg) (valid : BitVec 8) : Bool := rs.any fun r => match r with | .latch n => !valid.getLsbD n | _ => false
/-- The port register that a pn source pops, found bad, as a register of that specifier (R325, R334). -/
def portBad (s : State) (cid : Nat) : Option Word64 :=
  match s.above (s.ctx cid) with
  | some a => if s.regBad a 6 0 then some (0x8000000000000000 + BitVec.ofNat 64 (byteOf .pn)) else none
  | none => none
/-- The first poisoned or failing register that it reads, as cause 0x0D reports it (R325). -/
def poisoned (s : State) (cid : Nat) (rs : List Reg) : Option Word64 :=
  let x := s.ctx cid
  let storage (array n at_ : Nat) : Option Word64 := if s.regBad cid array n then some (0x8000000000000000 + BitVec.ofNat 64 at_) else none
  rs.findSome? fun r => match r with
    | .v n => if x.poisonV.contains n then some x.poisonAddr else storage 3 n n
    | .s n => if x.poisonS.contains n then some x.poisonAddr else storage 4 n (64 + n)
    | .acc n => storage 5 n (256 + n)
    | .pn => portBad s cid
    | _ => none
/-- The scalar registers whose marks its reads look at: none for the instructions that read a handle as it is (R281, R287). -/
def markedReads (op : Nat) (f : Fields) : List Nat :=
  if handleRead op then [] else (readsOf op f).filterMap fun r => match r with | .s n => some n | _ => none
/-- The marks that its reads look at (R281). -/
def marksRead (x : Ctx) (op : Nat) (f : Fields) : List Mark := (markedReads op f).filterMap fun n => Tables.get? x.marks n
/-- The registers that it is the first to read since their pending mark went (R306). -/
def joinsRead (x : Ctx) (op : Nat) (f : Fields) : List Nat := (markedReads op f).filter x.unjoined.contains
/-- A pending mark whose future is not settled (R281). -/
def pendingMark (s : State) (ms : List Mark) : Option Word32 :=
  ms.findSome? fun m => match m with
    | .pending h => (match s.future? h with | some e => if e.state = 1 then some h else none | none => none)
    | _ => none
/-- The first failed mark: cause, trapaddr, trapfut (R282); a pending one whose entry is gone gives 0x08. -/
def failedMark (s : State) (ms : List Mark) : Option (Nat × Word64 × Word64) :=
  ms.findSome? fun m => match m with
    | .failed h c a => some (c, a, h.setWidth 64)
    | .pending h => (match s.future? h with | some _ => none | none => some (8, 0, h.setWidth 64))

/-- Every register that an instruction names, and the accumulators of its loop (R106). -/
def namedRegs (x : Ctx) (op : Nat) (f : Fields) : List Reg := readsOf op f ++ writesOf op f ++ maskReads op f ++ loopAccs x op f
/-- What it reads that is poisoned or fails, as cause 0x0D reports it: the first in field order d, a, b, c (R85, R325, R334). -/
def spoiled (s : State) (cid op : Nat) (f : Fields) : Option Word64 :=
  poisoned s cid (loopReads (s.ctx cid) op f ++ readsOf op f)

/-- The checks and stalls of R85 and R106 in their order; none when the meaning may run. -/
def gate (s : State) (cid op : Nat) (f : Fields) (i : Instr) : Option Verdict :=
  let x := s.ctx cid
  let r := s.prow (rowOf cid)
  let rs := readsOf op f
  let named := namedRegs x op f
  let ms := marksRead x op f
  let js := joinsRead x op f
  let price := priceOf s cid op f
  if resting x (s.now cid) then some .wait
  else if x.acqDue then some (if loadsLanded x then .join [] else .wait)
  else if !i.wf then some (.trap 1 0 0)
  else if x.awaits named || s.latchAwaits cid named || flagsWait x named then some .wait
  else if badWord s cid op f then some (.trap 1 0 0)
  else if (op == 0x06 && !(specialRegs.any fun e => e.1 == sysIndex f && e.2)) || (op == 0x03 && !x.handling) then some (.trap 0xC 0 0)
  else if latchLost rs (validLatches r (planeOf cid)) then some (.trap 0xB 0 0)
  else if namesPn op f && x.rowid == 0 then some (.trap 0xA 0 0)
  else match (slotsOf s cid op f).find? fun e => !s.ownsSlot cid e.1 with
  | some e => some (.trap 0xE (BitVec.ofNat 64 e.1) 0)
  | none => match spoiled s cid op f with
  | some a => some (.trap 0xD a 0)
  | none =>
    if stalls s cid op f then some .wait
    else match pendingMark s ms with
    | some h => some (.park h)
    | none =>
      if !js.isEmpty then some (if loadsLanded x then .join js else .wait)
      else if price ≤ x.granted ∧ (¬ (op = 0xC0 ∨ op = 0xC1) ∨ r.baton = some (planeOf cid)) then
        match failedMark s ms with
        | some (c, a, h) => some (.trap c a h)
        | none => none
      else some (.want price (op == 0xC0 || op == 0xC1))

/-- Mark how the attempt ended. -/
def State.noted (s : State) (v : Nat) : State := { s with verdict := v, cur := none }
/-- The trap of a cause at this context's instruction (R327). -/
def trapOf (s : State) (cid : Nat) (i : Instr) (cause : Nat) (mask : Word32) (addr fut : Word64) : Trap :=
  { captured i with cause := cause, pc := (s.ctx cid).pc, mask := mask, addr := addr, fut := fut
                    ill := if cause = 1 then some (match i.long? with | some (_, f) => (f.guard.toNat, f.ginv) | none => (15, false)) else none }

/-- What taking the row's issue slot does to the physical row: round robin, the last context to issue, latches and loop
buffer of another context, yields that end, the context's unchosen count (R89, R107, R111, R125). -/
def State.beginIssue (s : State) (cid : Nat) : State :=
  let s1 := s.updRow (rowOf cid) fun r =>
    { r with rr := planeOf cid, lastIssued := some (planeOf cid), issuedAt := some (s.now cid), valid := validLatches r (planeOf cid)
             buf := match r.buf with | some b => if b.slot = planeOf cid then some b else none | none => none }
  (cyclicAfter (planeOf cid)).foldl (fun s sl => s.updCtx (4 * rowOf cid + sl) fun x =>
    if sl = planeOf cid then { x with unchosen := 0 } else { x with yieldedUntil := none }) s1
/-- Whether an instruction ends its chain whatever its chain bit (R110). -/
def endsChain (op : Nat) : Bool := op == 0x01 || op == 0x02 || op == 0x03 || op == 0x04 || op == 0x07
/-- The context's part of an issue: the PC moves, buckets are spent, its stall records clear. -/
def Ctx.retire (x : Ctx) (pc : Word64) (now : Nat) : Ctx :=
  { x with pc := pc, stage := .fresh, going := none, woken := none, granted := 0, request := none, unchosen := 0, repollAt := none
           batonPending := false, notBefore := max x.notBefore (now + 1), issued := true }
/-- What an instruction that issues makes of the row's chain (R110). -/
def State.chainOn (s : State) (cid op : Nat) (chainBit : Bool) : State :=
  s.updRow (rowOf cid) fun r =>
    let n := match r.chain with | some (sl, k) => if sl = planeOf cid then k + 1 else 1 | none => 1
    { r with chain := if chainBit && decide (n < 8) && !endsChain op then some (planeOf cid, n) else none, chainStall := 0 }
/-- The instruction issued when it came to this stage, and waits to complete; one stalled at mpoint, or parked in fwait, has not issued (R283,
R335). -/
def Stage.issued : Stage → Bool
  | .fresh | .atPoint _ | .fwaiting _ => false
  | _ => true
/-- The rest of an issue: the context, its block's count and the row's chain (R107, R110, R336); an instruction that issued before and
now completes leaves the chain as its issue made it. -/
def State.retire (s : State) (cid : Nat) (pc : Word64) (price op : Nat) (chainBit : Bool) : State :=
  let now := s.now cid
  let s1 := (s.updCtx cid fun x => x.retire pc now).returnBuckets (gridOf cid) ((s.ctx cid).granted - price)
  let s2 := s1.updBlock (s1.ctx cid).blk fun b => { b with count := b.count + 1 }
  if (s.ctx cid).stage.issued then s2 else s2.chainOn cid op chainBit
/-- Post what the context waits for (R112, R114): one request, dated from this C-die cycle. -/
def State.want (s : State) (cid price : Nat) (baton : Bool) : State :=
  s.updCtx cid fun x => { x with
    batonPending := baton, repollAt := none
    request := if price ≤ x.granted then none else match x.request with
      | some r => some { r with price := price - x.granted }
      | none => some { price := price - x.granted, cycle := (s.cdie (dieOf (gridOf cid))).clk } }

/-- A context stalled at mpoint has ended its chain (R335). -/
def State.endChainAt (s : State) (cid : Nat) (st : Stage) : State :=
  match st with
  | .atPoint _ => s.updRow (rowOf cid) fun r => match r.chain with
    | some (sl, _) => if sl = planeOf cid then { r with chain := none, chainStall := 0 } else r
    | none => r
  | _ => s
/-- The chain bit as the issue takes it: an mpoint that has stalled ends its chain whatever the bit (R335). -/
def chainBit (x : Ctx) (op : Nat) (f : Fields) : Bool :=
  f.chain && !(op == 0x0A && (match x.stage with | .atPoint _ => true | _ => false))
/-- An instruction's first wait after its issue: it has taken the row's issue slot, and stands at a later stage. -/
def Ctx.begins (x : Ctx) (st : Stage) : Bool := !x.stage.issued && st.issued
/-- What that wait makes of the row's chain (R110). -/
def State.beginChain (s : State) (cid op : Nat) (begins chainBit : Bool) : State := if begins then s.chainOn cid op chainBit else s
/-- Instruction i waits at a stage, having taken the issue slot or not; once it has issued it is fetched no more. -/
def State.waitAt (s : State) (cid : Nat) (i : Instr) (st : Stage) (took : Bool) : State :=
  (if took then s.beginIssue cid else s).updCtx cid fun x => { x with stage := st, going := if st.issued then some i else none }
/-- The acquire that comes before the next instruction (R303, R306): the unowned words go, 16 cycles; these registers are
joined. -/
def State.joinAt (s : State) (cid : Nat) (ns : List Nat) : State :=
  (s.acquire (gridOf cid)).updCtx cid fun x =>
    { x with acqDue := false, repollAt := none, unjoined := x.unjoined.filter fun n => !ns.contains n, notBefore := s.now cid + 16 }
/-- A trap found at the context's turn (R107, R326). -/
def State.trapAt (s : State) (cid : Nat) (t : Trap) : State := ((s.beginIssue cid).takeTrap cid t).noted 2
/-- One attempt to issue instruction i by the context cid: gate, meaning, and what follows. A request is posted only where nothing but the
buckets and the Baton is missing: an instruction that its entry stalls posts none (R106, R114). One that stands already is neither withdrawn nor
held back when such a stall begins after it was posted, as when the queue of R196 fills: the rules do not say (log entry 115). -/
def State.attempt (s : State) (cid op : Nat) (f : Fields) (i : Instr) (body : Nat → Fields → State → Res) : State :=
  let x := s.ctx cid
  let look := x.repollAt == some (s.now cid)
  match gate s cid op f i with
  | some .wait => (s.updCtx cid fun x => { x with batonPending := false }).noted 3
  | some (.want p b) => (match body cid f s with
      | .stay _ => s.updCtx cid fun x => { x with batonPending := false }
      | _ => s.want cid p b).noted 3
  | some (.park h) => ((s.waitAt cid i x.stage look).park cid (.future h)).noted (if look then 4 else 3)
  | some (.join ns) => (s.joinAt cid ns).noted 3
  | some (.trap c a h) => s.trapAt cid (trapOf s cid i c 0 a h)
  | none =>
    let next := x.pc + BitVec.ofNat 64 i.len
    match body cid f s with
    | .done s' => ((s'.beginIssue cid).retire cid next (priceOf s cid op f) op (chainBit x op f)).noted 1
    | .jump s' pc => ((s'.beginIssue cid).retire cid pc (priceOf s cid op f) op (chainBit x op f)).noted 1
    | .stay st => ((s.waitAt cid i st false).endChainAt cid st).noted 3
    | .hold s' st => ((s'.waitAt cid i st (x.begins st)).beginChain cid op (x.begins st) (chainBit x op f)).noted (if x.begins st then 4 else 3)
    | .park s' w st => (((s'.waitAt cid i st (look || x.begins st)).beginChain cid op (x.begins st) (chainBit x op f)).park cid w).noted
        (if look || x.begins st then 4 else 3)
    | .trap c m a h => s.trapAt cid (trapOf s cid i c m a h)
    | .trapWith s' c m a h => s'.trapAt cid (trapOf s cid i c m a h)
/-- What a meaning answers. -/
abbrev Out := Host.Outcome State Fault Refusal
/-- The issue of instruction i, op and fields f, by the context whose turn it is; nothing happens when none has it. -/
def issue (i : Instr) (op : Nat) (f : Fields) (body : Nat → Fields → State → Res) (s : State) : Out :=
  match s.cur with
  | none => .next s
  | some cid => if (s.ctx? cid).isSome then .next (s.attempt cid op f i body) else .next (s.noted 3)

/-- A short form issues as its L-form equivalent (R70), with its own length and encoding. -/
def issueShort (i : Instr) (body : Nat → Nat → Fields → State → Res) (s : State) : Out :=
  match i.expand? with
  | some (op, f) => issue i op f (body op) s
  | none => .next s

end Sys2Proof.Machine
end

