-- ==== Sys2Proof/Machine/Scalar.lean ====
section
/-! DEFINITION. Scalar ALU, scalar-other, mask instructions and control flow (R150 to R165): the meanings of opcodes 0x10 to
0x49 and of their short forms. -/
namespace Sys2Proof.Machine

/-- A write of a scalar result that is usable in the next cycle (R151), under nowb (R80). -/
def State.writeS (s : State) (cid : Nat) (f : Fields) (val : Word64) : State :=
  match f.d with
  | .s n => if f.nowb then s else s.updCtx cid fun x => x.setS n.val val
  | _ => s
/-- A scalar result that lands after some cycles. -/
def State.launchS (s : State) (cid : Nat) (f : Fields) (lat : Nat) (val : Word64) : State :=
  match f.d with
  | .s n => s.launch cid lat (if f.nowb then [] else [.s n.val val])
  | _ => s.launch cid lat []
def State.writeM (s : State) (cid : Nat) (f : Fields) (val : Word32) : State :=
  match f.d with
  | .v n => if f.nowb then s else s.updCtx cid fun x => x.setM n.val val
  | _ => s

/-- The value of the low w bits as the type reads them (R127). -/
def readAs (t : Ty) (x : Nat) : Int := if tySigned t then signed (tyWidth t) x else ((x % 2 ^ tyWidth t : Nat) : Int)
/-- Leading zeros within w bits. -/
def clzW (w x : Nat) : Nat := if x % 2 ^ w = 0 then w else w - 1 - Nat.log2 (x % 2 ^ w)
/-- Ones within w bits. -/
def popcW (w x : Nat) : Nat := ((List.range w).filter fun i => bitAt x i).length
/-- Shifts of R128, within w bits. -/
def shlW (w x n : Nat) : Nat := if n < w then (x <<< n) % 2 ^ w else 0
def shrW (w x n : Nat) : Nat := if n < w then (x % 2 ^ w) >>> n else 0
def sarW (w x n : Nat) : Nat := wrap w (signed w x / (2 ^ (min n w) : Nat))
/-- Quotient and remainder of R129. -/
def divT (t : Ty) (x y : Int) : Int := if y = 0 then (if tySigned t then -1 else (2 ^ tyWidth t : Nat) - 1) else Int.tdiv x y
def remT (_t : Ty) (x y : Int) : Int := if y = 0 then x else Int.tmod x y

/-- Op(x, y) of R153, exact; bits of A and B as natural numbers, the shift amount from B[7:0]. -/
def aluExact (op : Nat) (t : Ty) (a b : Nat) : Int :=
  let w := tyWidth t
  let x := readAs t a
  let y := readAs t b
  match op with
  | 0x10 => x + y
  | 0x11 => x - y
  | 0x12 => x * y
  | 0x13 => x * y / (2 ^ w : Nat)
  | 0x14 => divT t x y
  | 0x15 => remT t x y
  | 0x16 => ((a &&& b : Nat) : Int)
  | 0x17 => ((a ||| b : Nat) : Int)
  | 0x18 => ((a ^^^ b : Nat) : Int)
  | 0x19 => shlW w a (b % 256)
  | 0x1A => shrW w a (b % 256)
  | 0x1B => sarW w a (b % 256)
  | 0x1C => if x ≤ y then x else y
  | 0x1D => if y ≤ x then x else y
  | 0x1E => clzW w a
  | _ => popcW w a
/-- The scalar ALU's result (R153). -/
def aluResult (op : Nat) (t : Ty) (sat : Bool) (a b : Word64) : Word64 :=
  let r := aluExact op t a.toNat b.toNat
  extTy t (wrap (tyWidth t) (if sat then clampTy t r else r))
/-- The conditions of R154. -/
def condHolds (fn : Nat) (x y : Int) (a b : Nat) : Bool :=
  match fn with
  | 0 => decide (x = y) | 1 => decide (x ≠ y) | 2 => decide (x < y) | 3 => decide (x ≤ y)
  | 4 => decide (y < x) | 5 => decide (y ≤ x) | _ => (a &&& b) != 0
def cmpResult (t : Ty) (fn : Nat) (a b : Word64) : Word64 :=
  let w := tyWidth t
  BitVec.ofNat 64 (ofBool (condHolds fn (readAs t a.toNat) (readAs t b.toNat) (a.toNat % 2 ^ w) (b.toNat % 2 ^ w)))
/-- sli and slui (R157): the immediate of the L form, or the literal. -/
def immResult (f : Fields) (up : Bool) : Word64 :=
  let (k, w) := if isX f then ((litOf f).toNat, 32) else (imm16 f, 16)
  let (v, n) := if up then (k * 65536, w + 16) else (k, w)
  if f.mod = .i64 then sext64 n v else zext64 n v
def sextResult (t : Ty) (a b : Word64) : Word64 :=
  let n := b.toNat % 256
  if n = 0 then 0 else if n ≥ 64 then a else if t = .i64 then sext64 n a.toNat else zext64 n a.toNat
def bfxResult (t : Ty) (a b c : Word64) : Word64 :=
  let pos := b.toNat % 256
  let len := c.toNat % 256
  if len = 0 ∨ pos ≥ 64 then 0
  else
    let n := min len (64 - pos)
    if t = .i64 then sext64 n (field a.toNat pos n) else zext64 n (field a.toNat pos n)
def bfiResult (old a b c : Word64) : Word64 :=
  let pos := b.toNat % 256
  let len := c.toNat % 256
  if len = 0 ∨ pos ≥ 64 then old
  else
    let n := min len (64 - pos)
    let hole := BitVec.ofNat 64 ((2 ^ n - 1) * 2 ^ pos)
    (old &&& ~~~hole) ||| BitVec.ofNat 64 ((a.toNat % 2 ^ n) * 2 ^ pos)
/-- The result of a scalar instruction, 0x10 to 0x28, from its operands' 64-bit values and the old destination. -/
def scalarValue (op : Nat) (f : Fields) (a b c old : Word64) : Word64 :=
  match op with
  | 0x20 => cmpResult f.mod (f.fn.toNat % 8) a b
  | 0x21 => if c ≠ 0 then a else b
  | 0x22 => extTy f.mod a.toNat
  | 0x23 => immResult f false
  | 0x24 => immResult f true
  | 0x25 => a + (b <<< (f.fn.toNat % 8)) + c
  | 0x26 => sextResult f.mod a b
  | 0x27 => bfxResult f.mod a b c
  | 0x28 => bfiResult old a b c
  | op => aluResult op f.mod (f.fn.getLsbD 2) a b
/-- The result an instruction of 0x10 to 0x28 writes in context x. -/
def scalarResult (op : Nat) (f : Fields) (x : Ctx) : Word64 :=
  scalarValue op f (scalarOf x f false f.a) (scalarOf x f false f.b) (scalarOf x f false f.c) (scalarOf x f false f.d)
/-- Scalar ALU and scalar other (R151, R153 to R161): sdiv and srem land after 18 cycles. -/
def scalarBody (op : Nat) (cid : Nat) (f : Fields) (s : State) : Res :=
  let val := scalarResult op f (s.ctx cid)
  if op = 0x14 ∨ op = 0x15 then .done (s.launchS cid f 18 val) else .done (s.writeS cid f val)

/-- The mask an operand field names (R165). -/
def maskArg (x : Ctx) (o : Operand) : Word32 := match o with | .v n => x.mask n.val | _ => 0
/-- Mask results of R165. -/
def maskResult (op : Nat) (f : Fields) (x : Ctx) : Word32 :=
  let a := maskArg x f.a
  let b := maskArg x f.b
  let v := scalarOf x f false f.a
  match op with
  | 0x40 => a &&& b
  | 0x41 => a ||| b
  | 0x42 => a ^^^ b
  | 0x43 => a &&& ~~~b
  | 0x44 => ~~~a
  | 0x45 => v.setWidth 32
  | _ => if v.toNat < 32 then BitVec.ofNat 32 (2 ^ v.toNat) else 0
/-- Scalars made of a mask (R165). -/
def maskScalar (op : Nat) (a : Word32) : Word64 :=
  match op with
  | 0x46 => a.setWidth 64
  | 0x47 => BitVec.ofNat 64 (popcount a)
  | _ => match (lanesOf a).head? with | some l => BitVec.ofNat 64 l | none => 0xFFFFFFFFFFFFFFFF#64
def maskBody (op : Nat) (cid : Nat) (f : Fields) (s : State) : Res := .done (s.writeM cid f (maskResult op f (s.ctx cid)))
def maskGetBody (op : Nat) (cid : Nat) (f : Fields) (s : State) : Res :=
  .done (s.writeS cid f (maskScalar op (maskArg (s.ctx cid) f.a)))

/-- A branch's target (R81, R162). -/
def branchTarget (f : Fields) (pc : Word64) : Word64 :=
  let off : Int := if isX f then signed 32 (litOf f).toNat else signed 16 (imm16 f)
  BitVec.ofNat 64 (wrap 52 ((pc.toNat : Int) + 4 * off))
/-- The target passes bit 51 of the address space, so that the fetch there faults (R81). -/
def branchWraps (f : Fields) (pc : Word64) : Bool :=
  let off : Int := if isX f then signed 32 (litOf f).toNat else signed 16 (imm16 f)
  let t : Int := (pc.toNat : Int) + 4 * off
  decide (t < 0) || decide ((2 ^ 52 : Nat) ≤ t)
/-- Whether an offset branch is taken (R162). -/
def branchTaken (op : Nat) (f : Fields) (x : Ctx) : Bool :=
  let a := scalarOf x f false f.a
  match op with
  | 0x31 => if f.fn.getLsbD 0 then a == 0 else a != 0
  | 0x32 => (maskArg x f.a &&& x.mask 0) == 0
  | 0x33 => (maskArg x f.a &&& x.mask 0) != 0
  | 0x38 => scalarOf x f false f.d - 1 != 0
  | _ => true
/-- A target lies in the loop-buffer body from which the context's row runs (R89). -/
def State.inBody (s : State) (cid : Nat) (target : Word64) : Bool :=
  match (s.prow (rowOf cid)).buf with
  | some b => b.bytes.isSome && b.slot == planeOf cid && b.fn == (s.blockOf (s.ctx cid)).fn && decide (b.base ≤ target.toNat) && decide (target.toNat < b.base + b.len)
  | none => false
/-- A redirection of fetch to the instruction cache, 2 cycles (R163); a backward one whose body, up to the end of the branch, is at most
256 bytes is to be captured (R89). -/
def State.redirect (s : State) (cid : Nat) (len : Nat) (pc target : Word64) : State :=
  let span := pc.toNat + len - target.toNat
  let s1 := if decide (target.toNat ≤ pc.toNat) && decide (span ≤ 256) && !s.inBody cid target then
      s.updRow (rowOf cid) fun r => { r with buf := some { slot := planeOf cid, fn := (s.blockOf (s.ctx cid)).fn, base := target.toNat, len := span } }
    else s
  s1.updCtx cid fun x => { x with notBefore := s.now cid + 3 }
/-- A taken branch (R81, R163): no cost to a target in the loop-buffer body. -/
def State.branchTo (s : State) (cid : Nat) (len : Nat) (pc target : Word64) (wraps : Bool) : State :=
  let s1 := if s.inBody cid target then s else s.redirect cid len pc target
  if wraps then s1.updCtx cid fun x => { x with wrapped := true } else s1
/-- bra, bc, bmz, bmnz, call and loop (R162). -/
def branchBody (op len : Nat) (cid : Nat) (f : Fields) (s : State) : Res :=
  let x := s.ctx cid
  let next := x.pc + BitVec.ofNat 64 len
  let taken := branchTaken op f x
  let s1 := if op = 0x35 ∧ !f.nowb then s.updCtx cid fun x => x.setS 158 next
    else if op = 0x38 then s.writeS cid f (scalarOf x f false f.d - 1) else s
  if taken then .jump (s1.branchTo cid len x.pc (branchTarget f x.pc) (branchWraps f x.pc)) (branchTarget f x.pc) else .done s1
/-- jmp, callr and ret (R164). -/
def jumpBody (op : Nat) (cid : Nat) (f : Fields) (s : State) : Res :=
  let x := s.ctx cid
  let t := scalarOf x f false f.a
  if t.toNat % 4 ≠ 0 then .trap 5 0 t 0
  else if bitsOf t 63 52 ≠ 0 then .trap 6 0 t 0
  else
    let s1 := if op = 0x36 ∧ !f.nowb then s.updCtx cid fun x => x.setS 158 (x.pc + 8) else s
    .jump (s1.redirect cid 8 x.pc t) t

/-! ### The meanings -/
-- BEGIN MEANINGS
/-- SADD (R153). -/
def execSadd (f : Fields) (s : State) : Out := issue (.sadd f) 0x10 f (scalarBody 0x10) s
/-- SSUB (R153). -/
def execSsub (f : Fields) (s : State) : Out := issue (.ssub f) 0x11 f (scalarBody 0x11) s
/-- SMUL (R153). -/
def execSmul (f : Fields) (s : State) : Out := issue (.smul f) 0x12 f (scalarBody 0x12) s
/-- SMULH (R153). -/
def execSmulh (f : Fields) (s : State) : Out := issue (.smulh f) 0x13 f (scalarBody 0x13) s
/-- SDIV (R153). -/
def execSdiv (f : Fields) (s : State) : Out := issue (.sdiv f) 0x14 f (scalarBody 0x14) s
/-- SREM (R153). -/
def execSrem (f : Fields) (s : State) : Out := issue (.srem f) 0x15 f (scalarBody 0x15) s
/-- SAND (R153). -/
def execSand (f : Fields) (s : State) : Out := issue (.sand f) 0x16 f (scalarBody 0x16) s
/-- SOR (R153). -/
def execSor (f : Fields) (s : State) : Out := issue (.sor f) 0x17 f (scalarBody 0x17) s
/-- SXOR (R153). -/
def execSxor (f : Fields) (s : State) : Out := issue (.sxor f) 0x18 f (scalarBody 0x18) s
/-- SSHL (R153). -/
def execSshl (f : Fields) (s : State) : Out := issue (.sshl f) 0x19 f (scalarBody 0x19) s
/-- SSHR (R153). -/
def execSshr (f : Fields) (s : State) : Out := issue (.sshr f) 0x1A f (scalarBody 0x1A) s
/-- SSAR (R153). -/
def execSsar (f : Fields) (s : State) : Out := issue (.ssar f) 0x1B f (scalarBody 0x1B) s
/-- SMIN (R153). -/
def execSmin (f : Fields) (s : State) : Out := issue (.smin f) 0x1C f (scalarBody 0x1C) s
/-- SMAX (R153). -/
def execSmax (f : Fields) (s : State) : Out := issue (.smax f) 0x1D f (scalarBody 0x1D) s
/-- SCLZ (R153). -/
def execSclz (f : Fields) (s : State) : Out := issue (.sclz f) 0x1E f (scalarBody 0x1E) s
/-- SPOPC (R153). -/
def execSpopc (f : Fields) (s : State) : Out := issue (.spopc f) 0x1F f (scalarBody 0x1F) s
/-- SCMP (R154). -/
def execScmp (f : Fields) (s : State) : Out := issue (.scmp f) 0x20 f (scalarBody 0x20) s
/-- SSEL (R155). -/
def execSsel (f : Fields) (s : State) : Out := issue (.ssel f) 0x21 f (scalarBody 0x21) s
/-- SMOV (R156). -/
def execSmov (f : Fields) (s : State) : Out := issue (.smov f) 0x22 f (scalarBody 0x22) s
/-- SLI (R157). -/
def execSli (f : Fields) (s : State) : Out := issue (.sli f) 0x23 f (scalarBody 0x23) s
/-- SLUI (R157). -/
def execSlui (f : Fields) (s : State) : Out := issue (.slui f) 0x24 f (scalarBody 0x24) s
/-- SADR (R158). -/
def execSadr (f : Fields) (s : State) : Out := issue (.sadr f) 0x25 f (scalarBody 0x25) s
/-- SEXT (R159). -/
def execSext (f : Fields) (s : State) : Out := issue (.sext f) 0x26 f (scalarBody 0x26) s
/-- SBFX (R160). -/
def execSbfx (f : Fields) (s : State) : Out := issue (.sbfx f) 0x27 f (scalarBody 0x27) s
/-- SBFI (R161). -/
def execSbfi (f : Fields) (s : State) : Out := issue (.sbfi f) 0x28 f (scalarBody 0x28) s
/-- BRA (R162). -/
def execBra (f : Fields) (s : State) : Out := issue (.bra f) 0x30 f (branchBody 0x30 (Instr.len (.bra f))) s
/-- BC (R162). -/
def execBc (f : Fields) (s : State) : Out := issue (.bc f) 0x31 f (branchBody 0x31 (Instr.len (.bc f))) s
/-- BMZ (R162). -/
def execBmz (f : Fields) (s : State) : Out := issue (.bmz f) 0x32 f (branchBody 0x32 (Instr.len (.bmz f))) s
/-- BMNZ (R162). -/
def execBmnz (f : Fields) (s : State) : Out := issue (.bmnz f) 0x33 f (branchBody 0x33 (Instr.len (.bmnz f))) s
/-- CALL (R162). -/
def execCall (f : Fields) (s : State) : Out := issue (.call f) 0x35 f (branchBody 0x35 (Instr.len (.call f))) s
/-- LOOP (R162). -/
def execLoopBr (f : Fields) (s : State) : Out := issue (.loopBr f) 0x38 f (branchBody 0x38 (Instr.len (.loopBr f))) s
/-- JMP (R164). -/
def execJmp (f : Fields) (s : State) : Out := issue (.jmp f) 0x34 f (jumpBody 0x34) s
/-- CALLR (R164). -/
def execCallr (f : Fields) (s : State) : Out := issue (.callr f) 0x36 f (jumpBody 0x36) s
/-- RET (R164). -/
def execRet (f : Fields) (s : State) : Out := issue (.ret f) 0x37 f (jumpBody 0x37) s
/-- MAND (R165). -/
def execMand (f : Fields) (s : State) : Out := issue (.mand f) 0x40 f (maskBody 0x40) s
/-- MOR (R165). -/
def execMor (f : Fields) (s : State) : Out := issue (.mor f) 0x41 f (maskBody 0x41) s
/-- MXOR (R165). -/
def execMxor (f : Fields) (s : State) : Out := issue (.mxor f) 0x42 f (maskBody 0x42) s
/-- MANDN (R165). -/
def execMandn (f : Fields) (s : State) : Out := issue (.mandn f) 0x43 f (maskBody 0x43) s
/-- MNOT (R165). -/
def execMnot (f : Fields) (s : State) : Out := issue (.mnot f) 0x44 f (maskBody 0x44) s
/-- MSET (R165). -/
def execMset (f : Fields) (s : State) : Out := issue (.mset f) 0x45 f (maskBody 0x45) s
/-- MLANE (R165). -/
def execMlane (f : Fields) (s : State) : Out := issue (.mlane f) 0x49 f (maskBody 0x49) s
/-- MGET (R165). -/
def execMget (f : Fields) (s : State) : Out := issue (.mget f) 0x46 f (maskGetBody 0x46) s
/-- MPOP (R165). -/
def execMpop (f : Fields) (s : State) : Out := issue (.mpop f) 0x47 f (maskGetBody 0x47) s
/-- MFFS (R165). -/
def execMffs (f : Fields) (s : State) : Out := issue (.mffs f) 0x48 f (maskGetBody 0x48) s
/-- SMOV_S (R70). -/
def execSmovS (d a : Operand) (s : State) : Out := issueShort (.smovS d a) (scalarBody) s
/-- SADD_I64_S (R70). -/
def execSaddI64S (d a b : Operand) (s : State) : Out := issueShort (.saddI64S d a b) (scalarBody) s
/-- SADD_I64_IMM_S (R70). -/
def execSaddI64ImmS (d a : Operand) (imm : Byte) (s : State) : Out := issueShort (.saddI64ImmS d a imm) (fun op cid f => scalarBody op cid { f with b := .lit, form := .x (imm.signExtend 32) }) s
/-- BRA_S (R70). -/
def execBraS (off : BitVec 16) (s : State) : Out := issueShort (.braS off) (fun op => branchBody op 4) s
/-- LOOP_S (R70). -/
def execLoopS (d : Operand) (off : BitVec 16) (s : State) : Out := issueShort (.loopS d off) (fun op => branchBody op 4) s
/-- MAND_S (R70). -/
def execMandS (d a b : Operand) (s : State) : Out := issueShort (.mandS d a b) (maskBody) s
-- END MEANINGS
end Sys2Proof.Machine
end

