-- ==== Sys2Proof/Machine/Sfu.lean ====
section
/-! DEFINITION. The special functions (R194, R195): correctly rounded reciprocal and roots, and the six faithful functions,
whose exact value is bracketed by integer arithmetic to 512 fraction bits and whose choice within the bracket is free. -/
namespace Sys2Proof.Machine

/-- Fraction bits of the fixed-point arithmetic below. -/
def fxP : Nat := 512
def fxOne : Nat := 2 ^ fxP
/-- The integer square root, by bits from the top. -/
def isqrt (x : Nat) : Nat :=
  (List.range (Nat.log2 x / 2 + 1)).reverse.foldl (fun r i => if (r + 2 ^ i) * (r + 2 ^ i) ≤ x then r + 2 ^ i else r) 0
/-- atanh of the fraction n/d, n < d, in fixed point: the sum of (n/d)^(2k+1)/(2k+1). -/
def fxAtanh (n d terms : Nat) : Nat :=
  ((List.range terms).foldl (fun (acc : Nat × Nat) k => (acc.1 + acc.2 / (2 * k + 1), acc.2 * n * n / (d * d)))
    (0, fxOne * n / d)).1
/-- ln 2 = 2 atanh(1/3). -/
def fxLn2 : Nat := 2 * fxAtanh 1 3 170
/-- arctan of 1/d, by its alternating series. -/
def fxAtanInv (d terms : Nat) : Int :=
  ((List.range terms).foldl (fun (acc : Int × Nat) k =>
    (if k % 2 = 0 then acc.1 + (acc.2 / (2 * k + 1) : Nat) else acc.1 - (acc.2 / (2 * k + 1) : Nat), acc.2 / (d * d)))
    ((0 : Int), fxOne / d)).1
/-- π by Machin's formula. -/
def fxPi : Nat := (16 * fxAtanInv 5 120 - 4 * fxAtanInv 239 40).toNat
/-- e^r for a fixed-point r in [0, 1): Taylor's series. -/
def fxExp (r : Nat) : Nat :=
  ((List.range 110).foldl (fun (acc : Nat × Nat) k => (acc.1 + acc.2, acc.2 * r / fxOne / (k + 1))) (0, fxOne)).1
/-- e^(−y) for a fixed-point y ≥ 0, as a mantissa in fixed point and a power of two to divide by. -/
def fxExpNeg (y : Nat) : Nat × Nat :=
  let k := y / fxLn2
  (fxOne * fxOne / fxExp (y % fxLn2), k)
/-- sin of a fixed-point angle in [0, π/2]. -/
def fxSin (y : Nat) : Nat :=
  let y2 := y * y / fxOne
  ((List.range 60).foldl (fun (acc : Int × Nat) k =>
    (if k % 2 = 0 then acc.1 + (acc.2 : Nat) else acc.1 - (acc.2 : Nat), acc.2 * y2 / fxOne / ((2 * k + 2) * (2 * k + 3))))
    ((0 : Int), y)).1.toNat

/-- What a special function's exact value is, before its one rounding. -/
inductive SfuVal
  /-- a value fixed by R195 or exactly representable, with its flags -/
  | exact (v : FVal) (fl : Flags)
  /-- (-1)^neg × (m + δ) × 2^e with 0 < δ < 1, an exact value that no format holds -/
  | open_ (neg : Bool) (m : Nat) (e : Int)
  deriving DecidableEq, Repr

/-- m × 2^e, m ≥ 0, in fixed point, exactly for e ≥ −512 (every F32, F16 and BF16 value is). -/
def toFx (m : Nat) (e : Int) : Nat := m * 2 ^ (e + fxP).toNat
/-- The value is an integer. -/
def isIntVal (m : Nat) (e : Int) : Bool := e ≥ 0 || m % 2 ^ (-e).toNat == 0
def fone (neg : Bool) : FVal := .fin neg 1 0
def fzero (neg : Bool) : FVal := .fin neg 0 0

/-- sin(π t) for a fixed-point t in half-turns, t ≥ 0: sign and magnitude; none when it is exactly 0 or ±1. -/
def sinPi (t : Nat) : SfuVal :=
  let r := t % (2 * fxOne)
  let neg := decide (fxOne ≤ r)
  let u := r % fxOne
  if u = 0 then .exact (fzero false) 0
  else if 2 * u = fxOne then .exact (fone neg) 0
  else .open_ neg (fxSin (fxPi * min u (fxOne - u) / fxOne)) (-512)

/-- The exact result of a special function at a value (R194, R195); op as in R82. -/
def sfuValue (op : Nat) (x : FVal) : SfuVal :=
  match x with
  | .nan s => .exact (.nan false) (if s then fNv else 0)
  | .inf n =>
    match op with
    | 0x84 => .exact (fzero n) 0                                           -- vrcp
    | 0x85 => if n then .exact (.nan false) fNv else .exact (fzero false) 0 -- vrsq
    | 0x86 => if n then .exact (.nan false) fNv else .exact (.inf false) 0  -- vsqrt
    | 0x87 => .exact (if n then fzero false else .inf false) 0              -- vexp2
    | 0x88 => if n then .exact (.nan false) fNv else .exact (.inf false) 0  -- vlog2
    | 0x8B => .exact (fone n) 0                                             -- vtanh
    | 0x8C => .exact (if n then fzero false else fone false) 0              -- vsigm
    | _ => .exact (.nan false) fNv                                          -- vsin vcos
  | .fin n m e =>
    if m = 0 then
      match op with
      | 0x84 | 0x85 => .exact (.inf n) fDz
      | 0x86 | 0x8B => .exact (fzero n) 0
      | 0x88 => .exact (.inf true) fDz
      | 0x87 | 0x8A => .exact (fone false) 0
      | 0x8C => .exact (.fin false 1 (-1)) 0
      | _ => .exact (fzero false) 0
    else
      match op with
      | 0x84 =>
        let k := 2 * Nat.log2 m + 80
        if 2 ^ k % m = 0 then .exact (.fin n (2 ^ k / m) (-(k : Int) - e)) 0 else .open_ n (2 ^ k / m) (-(k : Int) - e)
      | 0x85 =>
        if n then .exact (.nan false) fNv
        else
          let (m', e') : Nat × Int := if e % 2 = 0 then (m, e) else (2 * m, e - 1)
          let k := Nat.log2 m' + 80
          let s := isqrt (2 ^ (2 * k) / m')
          if s * s * m' = 2 ^ (2 * k) then .exact (.fin false s (-(k : Int) - e' / 2)) 0
          else .open_ false s (-(k : Int) - e' / 2)
      | 0x86 =>
        if n then .exact (.nan false) fNv
        else
          let (m', e') : Nat × Int := if e % 2 = 0 then (m, e) else (2 * m, e - 1)
          let y := m' * 2 ^ 120
          let s := isqrt y
          if s * s = y then .exact (.fin false s (e' / 2 - 60)) 0 else .open_ false s (e' / 2 - 60)
      | 0x87 =>
        if isIntVal m e then
          let i := (roundInt 1 n m e).1
          .exact (.fin false 1 (max (-2000) (min 2000 i))) 0
        else
          let t := toFx m e
          let k : Int := if n then -((t / fxOne : Nat) : Int) - 1 else (t / fxOne : Nat)
          let r := if n then fxOne - t % fxOne else t % fxOne
          .open_ false (fxExp (r * fxLn2 / fxOne)) (max (-2000) (min 2000 k) - 512)
      | 0x88 =>
        if n then .exact (.nan false) fNv
        else
          let l := Nat.log2 m
          let k : Int := e + l
          if m = 2 ^ l then .exact (.fin (decide (k < 0)) k.natAbs 0) 0
          else
            let lf := fxOne * (2 * fxAtanh (m - 2 ^ l) (m + 2 ^ l) 180) / fxLn2
            let v : Int := k * (fxOne : Nat) + (lf : Nat)
            .open_ (decide (v < 0)) (if v < 0 then v.natAbs - 1 else v.natAbs) (-512)
      | 0x89 =>
        match sinPi (toFx m e) with
        | .open_ s v x => .open_ (s != n) v x
        | .exact (.fin s 1 k) fl => .exact (.fin (s != n) 1 k) fl
        | r => r
      | 0x8A => sinPi (toFx m e + fxOne / 2)
      | 0x8B =>
        if toFx m e ≥ 64 * fxOne then .open_ n (fxOne - 1) (-512)
        else
          let (t, k) := fxExpNeg (2 * toFx m e)
          let d := t / 2 ^ k
          .open_ n (fxOne * (fxOne - d) / (fxOne + d)) (-512)
      | _ =>
        if toFx m e ≥ 256 * fxOne then (if n then .open_ false 1 (-400) else .open_ false (fxOne - 1) (-512))
        else
          let (t, k) := fxExpNeg (toFx m e)
          let d := t / 2 ^ k
          if n then .open_ false (fxOne * t / (fxOne + d)) (-512 - (k : Int)) else .open_ false (fxOne * fxOne / (fxOne + d)) (-512)

/-- The opcode's result is correctly rounded, not only faithful (R194). -/
def sfuRounded (op : Nat) : Bool := op == 0x84 || op == 0x85 || op == 0x86
/-- One element of a special function: result bits and flags (R194, R195). An open value is rounded with its exact
remainder as a sticky bit; a faithful one goes down or up as Config.sfuUpper says, but that an exact power of two which the format does
not hold is rounded RNE (log entry 25). -/
def sfuElem (op : Nat) (ty : Ty) (fn : Nat) (x : Nat) : Nat × Flags :=
  let p := fpOf ty
  let sat := bitAt fn 2
  match sfuValue op (valF p x) with
  | .exact v fl =>
    let (r, fl2) := roundF p (if op == 0x86 then fn % 4 else 0) sat v
    (r, fl ||| fl2)
  | .open_ neg m e =>
    let rm := if sfuRounded op then (if op == 0x86 then fn % 4 else 0)
      else if Config.sfuUpper op (tyCode ty) fn x then 3 else 2
    roundFin p rm sat neg (2 * m + 1) (e - 1)

end Sys2Proof.Machine
end

