-- ==== Sys2Proof/Machine/Flags.lean ====
section
/-! DEFINITION. Lane-wise results and the flags they raise: packed elements of a lane (R78, R127), every vector instruction's
element result with its flags (R132, R176), and the reduction tree (R148). -/
namespace Sys2Proof.Machine

/-- Element e of a lane word, of width w. -/
def elem (w x e : Nat) : Nat := field x (w * e) w
/-- Put element e. -/
def setElem (w x e v : Nat) : Nat := x - elem w x e * 2 ^ (w * e) + (v % 2 ^ w) * 2 ^ (w * e)
/-- The elements of a lane, each from the same element of the sources, and the flags of all of them. -/
def mapElems (w : Nat) (h : Nat → Nat → Nat → Nat × Flags) (a b c : Nat) : Nat × Flags :=
  (List.range (32 / w)).foldl (fun acc e =>
    let r := h (elem w a e) (elem w b e) (elem w c e)
    (acc.1 + (r.1 % 2 ^ w) * 2 ^ (w * e), acc.2 ||| r.2)) (0, 0)
/-- A lane function over the 32 lanes; flags of active lanes only (R77, R132). -/
def overLanes (mask : Word32) (h : Nat → Nat × Flags) : Lanes × Flags :=
  (tab 32 fun l => BitVec.ofNat 32 (h l).1, (lanesOf mask).foldl (fun fl l => fl ||| (h l).2) 0)

/-- Vector integer Op of R177, exact. -/
def vintExact (op : Nat) (t : Ty) (a b c : Nat) : Int :=
  let w := tyWidth t
  let x := readAs t a
  let y := readAs t b
  match op with
  | 0x50 => x + y
  | 0x51 => x - y
  | 0x52 => x * y
  | 0x53 => x * y / (2 ^ w : Nat)
  | 0x54 => x * y + readAs t c
  | 0x55 => if x ≤ y then x else y
  | 0x56 => if y ≤ x then x else y
  | 0x57 => x.natAbs
  | 0x58 => ((a &&& b : Nat) : Int)
  | 0x59 => ((a ||| b : Nat) : Int)
  | 0x5A => ((a ^^^ b : Nat) : Int)
  | 0x5B => ((2 ^ w - 1 - a % 2 ^ w : Nat) : Int)
  | 0x5C => shlW w a (b % 256)
  | 0x5D => shrW w a (b % 256)
  | 0x5E => sarW w a (b % 256)
  | 0x7A => clzW w a
  | _ => popcW w a
/-- One element of a vector integer instruction (R177, R190). -/
def vintElem (op : Nat) (t : Ty) (sat : Bool) (a b c : Nat) : Nat :=
  let r := vintExact op t a b c
  wrap (tyWidth t) (if sat then clampTy t r else r)
/-- vrnd of one element (R182). -/
def vrndElem (p : Fp) (rm x : Nat) : Nat × Flags :=
  match valF p x with
  | .nan sig => (p.qnan, if sig then fNv else 0)
  | .inf n => (p.infinity n, 0)
  | .fin n m e =>
    let (i, nx) := roundInt rm n m e
    ((roundF p 0 false (.fin n i.natAbs 0)).1, if nx then fNx else 0)
/-- vscale of one element by 2^n (R183); .sat turns an infinite element into the largest finite value (R131; log 24). -/
def vscaleElem (p : Fp) (fn x : Nat) (n : Int) : Nat × Flags :=
  match valF p x with
  | .nan sig => (p.qnan, if sig then fNv else 0)
  | .inf neg => (if bitAt fn 2 then p.maxFinite neg else p.infinity neg, 0)
  | .fin neg m e => if m = 0 then (p.zeroBits neg, 0) else roundFin p (fn % 4) (bitAt fn 2) neg m (e + n)
/-- vclamp of one element (R179). -/
def vclampElem (p : Fp) (x y z : Nat) : Nat × Flags :=
  let sig := (valF p x).isSig || (valF p y).isSig || (valF p z).isSig
  let r := if (valF p x).isNan then p.qnan else (minMaxF p false (minMaxF p true x y).1 z).1
  (r, if sig then fNv else 0)
/-- vabs and vneg of one element: the sign bit cleared or inverted, a NaN canonical (R179). -/
def signElem (p : Fp) (neg : Bool) (x : Nat) : Nat × Flags :=
  match valF p x with
  | .nan sig => (p.qnan, if sig then fNv else 0)
  | _ => (if neg then (x + p.signBit) % 2 ^ p.width else x % p.signBit, 0)
/-- One element of the float instructions 0x60 to 0x6E but for vdot2 and vred (R178, R179, R182, R183). -/
def floatElem (op : Nat) (t : Ty) (fn : Nat) (a b c : Nat) : Nat × Flags :=
  let p := fpOf t
  let x := valF p a
  let y := valF p b
  let z := valF p c
  let sum := sumProducts p (fn % 4) (bitAt fn 2)
  match op with
  | 0x60 => sum [] [x, y]
  | 0x61 => sum [] [x, y.negate]
  | 0x62 => sum [(x, y)] []
  | 0x63 => sum [(x, y)] [z]
  | 0x64 => sum [(x, y)] [z.negate]
  | 0x65 => sum [(x.negate, y)] [z]
  | 0x66 => minMaxF p false a b
  | 0x67 => minMaxF p true a b
  | 0x68 => signElem p false a
  | 0x69 => signElem p true a
  | 0x6C => vclampElem p a b c
  | 0x6D => vrndElem p (fn % 4) a
  | _ => vscaleElem p fn a (signed p.width b)
/-- vdot2 of one lane (R147, R180): any NaN input sets nv; an exactly zero sum is −0 under RDN (log 24). -/
def dot2Lane (t : Ty) (fn : Nat) (a b : Nat) (c : Option Nat) : Nat × Flags :=
  let p := fpOf t
  let v (x e : Nat) := valF p (elem 16 x e)
  let z := match c with | some z => [valF fpF32 z] | none => []
  let r := sumProducts fpF32 (fn % 4) (bitAt fn 2) [(v a 0, v b 0), (v a 1, v b 1)] z
  let exact := (sumF (fn % 4) ([(mulF (v a 0) (v b 0)).1, (mulF (v a 1) (v b 1)).1] ++ z)).1
  (if fn % 4 = 2 ∧ exact.isZero then fpF32.zeroBits true else r.1, if [v a 0, v a 1, v b 0, v b 1].any (·.isNan) || z.any (·.isNan) then r.2 ||| fNv else r.2)
/-- One level of the tree of R148: adjacent pairs combined. -/
def redLevel (h : Nat → Nat → Nat × Flags) : List Nat → List Nat × Flags
  | x :: y :: t =>
    let r := h x y
    let u := redLevel h t
    (r.1 :: u.1, r.2 ||| u.2)
  | t => (t, 0)
/-- The five levels. -/
def redTree (h : Nat → Nat → Nat × Flags) : Nat → List Nat × Flags → List Nat × Flags
  | 0, r => r
  | k + 1, r => let u := redLevel h r.1; redTree h k (u.1, r.2 ||| u.2)
/-- vred (R148, R181). -/
def vredResult (fn : Nat) (mask : Word32) (a : Lanes) : Nat × Flags :=
  let idle := if fn / 8 = 0 then 0x80000000 else fpF32.qnan
  let xs := (List.range 32).map fun l => if mask.getLsbD l then (a.get l).toNat else idle
  let h := match fn / 8 with
    | 0 => fun x y => addFp fpF32 (fn % 4) (bitAt fn 2) x y
    | 1 => minMaxF fpF32 true
    | _ => minMaxF fpF32 false
  let r := redTree h 5 (xs, 0)
  (r.1.headD 0, r.2)
/-- vcmp of one lane (R184). -/
def vcmpLane (t : Ty) (fn a b : Nat) : Bool × Flags :=
  if t = .f32 then
    let x := valF fpF32 a
    let y := valF fpF32 b
    let sig : Flags := if x.isSig || y.isSig then fNv else 0
    let un := x.isNan || y.isNan
    let any : Flags := if un then fNv else 0
    let o := cmpF x y
    match fn with
    | 0 => (o == some .eq, sig) | 1 => (o != some .eq, sig) | 2 => (o == some .lt, any)
    | 3 => (o == some .lt || o == some .eq, any) | 4 => (o == some .gt, any)
    | 5 => (o == some .gt || o == some .eq, any) | _ => (un, sig)
  else (condHolds fn (readAs t a) (readAs t b) a b, 0)
/-- vcvt of one lane: merged into old when it narrows, split when it widens (R191); a t6 destination holds 0 in bits [7:6] of each
byte (R137). -/
def vcvtLane (dst src : Ty) (part fn old a : Nat) : Nat × Flags :=
  let es := tyPerLane src
  let ed := tyPerLane dst
  let ws := 32 / es
  let wd := 32 / ed
  let cv := convert dst src (fn % 4) (bitAt fn 2)
  if es < ed then
    (List.range es).foldl (fun acc i => let r := cv (elem ws a i); (setElem wd acc.1 (part * es + i) r.1, acc.2 ||| r.2)) (if dst = .t6 then old &&& 0x3F3F3F3F else old, 0)
  else
    (List.range ed).foldl (fun acc i => let r := cv (elem ws a (part * ed + i)); (acc.1 + (r.1 % 2 ^ wd) * 2 ^ (wd * i), acc.2 ||| r.2)) (0, 0)
/-- vpack of one lane (R192). -/
def vpackLane (t : Ty) (sat : Bool) (a b : Nat) : Nat :=
  let w := tyWidth t
  let n (x : Nat) : Nat := if sat then wrap w (clampTy t (if tySigned t then signed (2 * w) x else ((x % 2 ^ (2 * w) : Nat) : Int))) else x % 2 ^ w
  let k := 16 / w
  (List.range k).foldl (fun acc i => acc + n (elem (2 * w) a i) * 2 ^ (w * i) + n (elem (2 * w) b i) * 2 ^ (w * (k + i))) 0
/-- The integer type of twice the width: vpack's source elements (R192). -/
def twiceTy : Ty → Ty
  | .i8 => .i16 | .n8 => .n16 | .i16 => .i32 | .n16 => .n32 | t => t
/-- vunpack of one lane (R192). -/
def vunpackLane (t : Ty) (hi : Bool) (a : Nat) : Nat :=
  let w := tyWidth t
  let k := 16 / w
  (List.range k).foldl (fun acc i => acc + wrap (2 * w) (readAs t (elem w a (k * ofBool hi + i))) * 2 ^ (2 * w * i)) 0
/-- vscan of one lane: over the active lanes up to it (R189). -/
def vscanLane (t : Ty) (fn : Nat) (mask : Word32) (a : Lanes) (l : Nat) : Nat :=
  let before := (lanesOf mask).filter fun j => decide (j < l)
  let upto := (lanesOf mask).filter fun j => decide (j ≤ l)
  let best (h : Int → Int → Bool) := upto.foldl (fun (acc : Option Nat) j =>
    let x := (a.get j).toNat
    match acc with | none => some x | some y => if h (readAs t x) (readAs t y) then some x else some y) none
  match fn with
  | 0 => upto.foldl (fun n j => n + (a.get j).toNat) 0
  | 1 => before.foldl (fun n j => n + (a.get j).toNat) 0
  | 2 => (best fun x y => decide (y < x)).getD 0
  | _ => (best fun x y => decide (x < y)).getD 0

end Sys2Proof.Machine
end

