-- ==== Sys2Proof/Machine/Vector.lean ====
section
/-! DEFINITION. Vector integer, vector float, compare, select, lane, conversion and special-function instructions (R173 to
R196): the meanings of opcodes 0x50 to 0x8C and of their short forms. -/
namespace Sys2Proof.Machine

/-- The kind of a vector source field (R75). -/
def kindOf : Cls → Kind | .vsrc k => k | _ => .int
/-- The three vector sources, each read once in every lane (R174). -/
structure Srcs where
  a : Lanes
  b : Lanes
  c : Lanes
def srcsOf (s : State) (cid op : Nat) (f : Fields) : Srcs :=
  let x := s.ctx cid
  let r := s.prow (rowOf cid)
  let pn := s.pnLanes cid
  let e := (desc op).getD {}
  { a := vectorOf x r pn f (kindOf e.a) f.a, b := vectorOf x r pn f (kindOf e.b) f.b, c := vectorOf x r pn f (kindOf e.c) f.c }
/-- The pop of an instruction that names pn (R257, R258). -/
def State.popFor (s : State) (cid op : Nat) (f : Fields) : State := if namesPn op f then s.popTake cid else s
/-- A vector result on its way (R174, R175). -/
def vecDone (s : State) (cid op : Nat) (f : Fields) (lat : Nat) (val : Lanes) (mask : Word32) (flags : Flags) (canFlag : Bool) : Res :=
  .done ((s.popFor cid op f).vectorResult cid f lat val mask flags (priceOf s cid op f) [] false canFlag)

/-- The latency of R175. -/
def vecLatency (op : Nat) : Nat :=
  if op ≤ 0x5F then 2 else if op = 0x6B then 12 else if op ≤ 0x6E then 4
  else if op = 0x75 ∨ op = 0x77 ∨ op = 0x78 ∨ op = 0x79 then 4 else if op = 0x81 then 8 else if op ≤ 0x7A then 2 else 4

/-- The lanes and flags of an element-wise instruction (R177 to R183, R190, R194). -/
def elemResult (op : Nat) (f : Fields) (mask : Word32) (x : Srcs) : Lanes × Flags :=
  let w := tyWidth f.mod
  let fn := f.fn.toNat
  overLanes mask fun l =>
    mapElems w (fun a b c =>
      if op ≤ 0x5F ∨ op = 0x7A then (vintElem op f.mod (bitAt fn 2) a b c, 0)
      else if op ≤ 0x6E then floatElem op f.mod fn a b c
      else sfuElem op f.mod fn a) (x.a.get l).toNat (x.b.get l).toNat (x.c.get l).toNat
/-- Element-wise instructions with a fixed latency. -/
def elemBody (op cid : Nat) (f : Fields) (s : State) : Res :=
  let mask := (s.ctx cid).active f
  let r := elemResult op f mask (srcsOf s cid op f)
  vecDone s cid op f (vecLatency op) r.1 mask r.2 (0x60 ≤ op && op ≤ 0x6E)
def vdot2Body (op cid : Nat) (f : Fields) (s : State) : Res :=
  let mask := (s.ctx cid).active f
  let x := srcsOf s cid op f
  -- the addend is an F32 vector source whatever mod holds, so its constants are F32 (R180)
  let z := vectorOf (s.ctx cid) (s.prow (rowOf cid)) (s.pnLanes cid) { f with mod := .f32 } .float f.c
  let r := overLanes mask fun l => dot2Lane f.mod f.fn.toNat (x.a.get l).toNat (x.b.get l).toNat (if f.c = .zero then none else some (z.get l).toNat)
  vecDone s cid op f 4 r.1 mask r.2 true
def vredBody (op cid : Nat) (f : Fields) (s : State) : Res :=
  let mask := (s.ctx cid).active f
  let r := vredResult f.fn.toNat mask (srcsOf s cid op f).a
  vecDone s cid op f 12 (Lanes.all (BitVec.ofNat 32 r.1)) mask (if mask = 0 then 0 else r.2) true
/-- vcmp writes a mask (R184). -/
def vcmpBody (op cid : Nat) (f : Fields) (s : State) : Res :=
  let x := s.ctx cid
  let mask := x.active f
  let v := srcsOf s cid op f
  let r (l : Nat) := vcmpLane f.mod (f.fn.toNat % 8) (v.a.get l).toNat (v.b.get l).toNat
  let bits := maskOf fun l => (r l).1
  let fl := (lanesOf mask).foldl (fun fl l => fl ||| (r l).2) 0
  let s1 := s.popFor cid op f
  match f.d with
  | .v n =>
    let val := (bits &&& mask) ||| (x.mask n.val &&& ~~~mask)
    .done (s1.launch cid 2 (if f.nowb then [] else [.m n.val val]) fl (priceOf s cid op f) false (f.mod == .f32))
  | _ => .done s1
def vselBody (op cid : Nat) (f : Fields) (s : State) : Res :=
  let x := s.ctx cid
  let v := srcsOf s cid op f
  let m := maskArg x f.c
  vecDone s cid op f 2 (tab 32 fun l => if m.getLsbD l then v.a.get l else v.b.get l) (x.active f) 0 false
def vmovBody (op cid : Nat) (f : Fields) (s : State) : Res := vecDone s cid op f 2 (srcsOf s cid op f).a ((s.ctx cid).active f) 0 false
/-- The lane number of b, S[B][4:0] (R186, R187). -/
def laneArg (x : Ctx) (f : Fields) : Nat := (scalarOf x f false f.b).toNat % 32
def vbcastBody (op cid : Nat) (f : Fields) (s : State) : Res :=
  vecDone s cid op f 2 (Lanes.all ((srcsOf s cid op f).a.get (laneArg (s.ctx cid) f))) ((s.ctx cid).active f) 0 false
/-- vext writes a scalar (R186). -/
def vextBody (op cid : Nat) (f : Fields) (s : State) : Res :=
  let val := extTy f.mod ((srcsOf s cid op f).a.get (laneArg (s.ctx cid) f)).toNat
  let w := match f.d with | .s n => if f.nowb then [] else [RegWrite.s n.val val] | _ => []
  .done ((s.popFor cid op f).launch cid 2 w 0 (priceOf s cid op f))
def vpermBody (op cid : Nat) (f : Fields) (s : State) : Res :=
  let v := srcsOf s cid op f
  vecDone s cid op f 4 (tab 32 fun l => v.a.get ((v.b.get l).toNat % 32)) ((s.ctx cid).active f) 0 false
def vrotBody (op cid : Nat) (f : Fields) (s : State) : Res :=
  let k := laneArg (s.ctx cid) f
  vecDone s cid op f 2 (tab 32 fun l => (srcsOf s cid op f).a.get ((l + k) % 32)) ((s.ctx cid).active f) 0 false
/-- vcompress: the selected lanes packed down into lanes 0 to j − 1, which alone are written (R188). -/
def vcompressBody (op cid : Nat) (f : Fields) (s : State) : Res :=
  let x := s.ctx cid
  let sel := lanesOf (x.active f &&& maskArg x f.b)
  let a := (srcsOf s cid op f).a
  vecDone s cid op f 4 (tab 32 fun j => a.get (sel.getD j 0)) (maskOf fun j => decide (j < sel.length)) 0 false
/-- vexpand: source lanes 0 to j − 1 spread over the selected lanes, which alone are written (R188). -/
def vexpandBody (op cid : Nat) (f : Fields) (s : State) : Res :=
  let x := s.ctx cid
  let m := x.active f &&& maskArg x f.b
  let a := (srcsOf s cid op f).a
  vecDone s cid op f 4 (tab 32 fun l => a.get ((lanesOf m).filter fun j => decide (j < l)).length) m 0 false
def vscanBody (op cid : Nat) (f : Fields) (s : State) : Res :=
  let mask := (s.ctx cid).active f
  let a := (srcsOf s cid op f).a
  vecDone s cid op f 4 (tab 32 fun l => BitVec.ofNat 32 (vscanLane f.mod (f.fn.toNat % 4) mask a l)) mask 0 false
def vcvtBody (op cid : Nat) (f : Fields) (s : State) : Res :=
  let mask := (s.ctx cid).active f
  let a := (srcsOf s cid op f).a
  let old := s.oldDest cid f
  let src := (tyOf (byteOf f.b)).getD .i8
  let r := overLanes mask fun l => vcvtLane f.mod src (byteOf f.c) f.fn.toNat (old.get l).toNat (a.get l).toNat
  vecDone s cid op f 4 r.1 mask r.2 true
def vpackBody (op cid : Nat) (f : Fields) (s : State) : Res :=
  -- the sources hold elements of twice the width of mod, so their constants do (R75, R192)
  let src (o : Operand) := vectorOf (s.ctx cid) (s.prow (rowOf cid)) (s.pnLanes cid) { f with mod := twiceTy f.mod } .int o
  vecDone s cid op f 4 (tab 32 fun l => BitVec.ofNat 32 (vpackLane f.mod (f.fn.getLsbD 2) ((src f.a).get l).toNat ((src f.b).get l).toNat))
    ((s.ctx cid).active f) 0 false
def vunpackBody (op cid : Nat) (f : Fields) (s : State) : Res :=
  let v := srcsOf s cid op f
  vecDone s cid op f 4 (tab 32 fun l => BitVec.ofNat 32 (vunpackLane f.mod (f.fn.getLsbD 3) (v.a.get l).toNat))
    ((s.ctx cid).active f) 0 false

/-- One source element of vcvto: lane, its place, its code, whether it is an outlier, its BF16, its flags (R193). -/
structure OutElem where
  lane : Nat
  i : Nat
  code : Nat
  out : Bool
  bf : Nat
  fl : Flags
/-- The active elements of a vcvto in lane and element order. -/
def vcvtoElems (dst src : Ty) (thr : Nat) (mask : Word32) (a : Lanes) : List OutElem :=
  let t := (valF fpF32 thr).abs
  (lanesOf mask).flatMap fun l => (List.range (tyPerLane src)).map fun i =>
    let x := elemVal src (elem (tyWidth src) (a.get l).toNat i)
    let out := !x.isNan && !t.isNan && cmpF x.abs t == some .gt
    let r := roundT dst x
    { lane := l, i := i, code := if out then 0 else r.1, out := out, bf := (roundF fpBf16 0 false x).1, fl := if out then 0 else r.2 }
/-- vcvto (R193): list addresses are checked first; then the codes, the mask, the list and the control word. -/
def vcvtoBody (op cid : Nat) (f : Fields) (s : State) : Res :=
  let x := s.ctx cid
  let mask := x.active f
  let src : Ty := if f.fn.getLsbD 3 then .bf16 else .f32
  -- a is of the source type fn[3] names, so its constants are (R75)
  let a := vectorOf x (s.prow (rowOf cid)) (s.pnLanes cid) { f with mod := src } .float f.a
  let cw := scalarOf x f false f.b
  let es := tyPerLane src
  let ed := tyPerLane f.mod
  let part := bitsOf cw 55 53 % (ed / es)
  let els := vcvtoElems f.mod src (cw.toNat % 2 ^ 31) mask a
  let outs := els.filter (·.out)
  let ptr := bitsOf cw 52 32
  let sp := (s.blockOf x).spanOn (gridOf cid)
  let at_ (j : Nat) : Nat := ptr + 2 * j
  let bad := (List.range outs.length).filter fun j => !(decide (sp.base ≤ at_ j) && decide (at_ j + 2 ≤ sp.lim))
  let laneMask (js : List Nat) : Word32 := maskOf fun l => js.any fun j => match outs[j]? with | some o => o.lane == l | none => false
  match bad.head? with
  | some j => .trap 4 (laneMask bad) (BitVec.ofNat 64 (at_ j)) 0
  | none =>
    if ptr % 2 = 1 ∧ outs ≠ [] then .trap 5 (laneMask (List.range outs.length)) (BitVec.ofNat 64 ptr) 0
    else if outs ≠ [] ∧ (16 ≤ x.stores.length ∨ ((List.range outs.length).any fun j =>
        s.bankHeld cid (gridOf cid) (bankOf (at_ j)) || x.bankOps.any fun e => e.2.1.getLsbD (bankOf (at_ j)))) then .stay .fresh
    else
      let wd := 32 / ed
      let old := s.oldDest cid f
      let val : Lanes := tab 32 fun l => BitVec.ofNat 32
        ((els.filter fun o => o.lane == l).foldl (fun acc o => setElem wd acc (part * es + o.i) o.code) (old.get l).toNat)
      let fl := els.foldl (fun fl o => fl ||| o.fl) 0
      let mOut := maskOf fun l => outs.any fun o => o.lane == l
      let mD := match f.c with | .v n => [RegWrite.m n.val ((mOut &&& mask) ||| (x.mask n.val &&& ~~~mask))] | _ => []
      let cw2 : Word64 := BitVec.ofNat 64 (cw.toNat - ptr * 2 ^ 32 + (ptr + 2 * outs.length) % 2 ^ 21 * 2 ^ 32)
      let cD := match f.b with | .s n => [RegWrite.s n.val cw2] | _ => []
      let bs := (List.range outs.length).flatMap fun j =>
        let v := match outs[j]? with | some o => o.bf | none => 0
        [(Space.side (gridOf cid), at_ j, BitVec.ofNat 8 v), (Space.side (gridOf cid), at_ j + 1, BitVec.ofNat 8 (v / 256))]
      let s1 := ((if outs.isEmpty then s else s.checked cid).popFor cid op f).queueStore cid 0 bs
      .done (s1.vectorResult cid f 8 val mask fl (priceOf s cid op f) (mD ++ cD) false true)
/-- Special functions: the result is queued at issue and lands 12 cycles after the pipe accepts it (R194 to R196). -/
def sfuBody (op cid : Nat) (f : Fields) (s : State) : Res :=
  let x := s.ctx cid
  let mask := x.active f
  let r := elemResult op f mask (srcsOf s cid op f)
  let s1 := (s.popFor cid op f).vectorResult cid f 12 r.1 mask r.2 (priceOf s cid op f) [] true true
  .done (s1.updRow (rowOf cid) fun p => { p with sfuQueue := p.sfuQueue ++ [(cid, x.nextId)] })

/-! ### The meanings -/
-- BEGIN MEANINGS
/-- VADD_INT (R177). -/
def execVaddInt (f : Fields) (s : State) : Out := issue (.vaddInt f) 0x50 f (elemBody 0x50) s
/-- VSUB_INT (R177). -/
def execVsubInt (f : Fields) (s : State) : Out := issue (.vsubInt f) 0x51 f (elemBody 0x51) s
/-- VMUL_INT (R177). -/
def execVmulInt (f : Fields) (s : State) : Out := issue (.vmulInt f) 0x52 f (elemBody 0x52) s
/-- VMULH (R177). -/
def execVmulh (f : Fields) (s : State) : Out := issue (.vmulh f) 0x53 f (elemBody 0x53) s
/-- VMAD (R177). -/
def execVmad (f : Fields) (s : State) : Out := issue (.vmad f) 0x54 f (elemBody 0x54) s
/-- VMIN_INT (R177). -/
def execVminInt (f : Fields) (s : State) : Out := issue (.vminInt f) 0x55 f (elemBody 0x55) s
/-- VMAX_INT (R177). -/
def execVmaxInt (f : Fields) (s : State) : Out := issue (.vmaxInt f) 0x56 f (elemBody 0x56) s
/-- VABS_INT (R177). -/
def execVabsInt (f : Fields) (s : State) : Out := issue (.vabsInt f) 0x57 f (elemBody 0x57) s
/-- VAND (R177). -/
def execVand (f : Fields) (s : State) : Out := issue (.vand f) 0x58 f (elemBody 0x58) s
/-- VOR (R177). -/
def execVor (f : Fields) (s : State) : Out := issue (.vor f) 0x59 f (elemBody 0x59) s
/-- VXOR (R177). -/
def execVxor (f : Fields) (s : State) : Out := issue (.vxor f) 0x5A f (elemBody 0x5A) s
/-- VNOT (R177). -/
def execVnot (f : Fields) (s : State) : Out := issue (.vnot f) 0x5B f (elemBody 0x5B) s
/-- VSHL (R177). -/
def execVshl (f : Fields) (s : State) : Out := issue (.vshl f) 0x5C f (elemBody 0x5C) s
/-- VSHR (R177). -/
def execVshr (f : Fields) (s : State) : Out := issue (.vshr f) 0x5D f (elemBody 0x5D) s
/-- VSAR (R177). -/
def execVsar (f : Fields) (s : State) : Out := issue (.vsar f) 0x5E f (elemBody 0x5E) s
/-- VPOPC (R177). -/
def execVpopc (f : Fields) (s : State) : Out := issue (.vpopc f) 0x5F f (elemBody 0x5F) s
/-- VADD_F (R178). -/
def execVaddF (f : Fields) (s : State) : Out := issue (.vaddF f) 0x60 f (elemBody 0x60) s
/-- VSUB_F (R178). -/
def execVsubF (f : Fields) (s : State) : Out := issue (.vsubF f) 0x61 f (elemBody 0x61) s
/-- VMUL_F (R178). -/
def execVmulF (f : Fields) (s : State) : Out := issue (.vmulF f) 0x62 f (elemBody 0x62) s
/-- VFMA (R178). -/
def execVfma (f : Fields) (s : State) : Out := issue (.vfma f) 0x63 f (elemBody 0x63) s
/-- VFMS (R178). -/
def execVfms (f : Fields) (s : State) : Out := issue (.vfms f) 0x64 f (elemBody 0x64) s
/-- VFNMA (R178). -/
def execVfnma (f : Fields) (s : State) : Out := issue (.vfnma f) 0x65 f (elemBody 0x65) s
/-- VMIN_F (R179). -/
def execVminF (f : Fields) (s : State) : Out := issue (.vminF f) 0x66 f (elemBody 0x66) s
/-- VMAX_F (R179). -/
def execVmaxF (f : Fields) (s : State) : Out := issue (.vmaxF f) 0x67 f (elemBody 0x67) s
/-- VABS_F (R179). -/
def execVabsF (f : Fields) (s : State) : Out := issue (.vabsF f) 0x68 f (elemBody 0x68) s
/-- VNEG (R179). -/
def execVneg (f : Fields) (s : State) : Out := issue (.vneg f) 0x69 f (elemBody 0x69) s
/-- VDOT2 (R180). -/
def execVdot2 (f : Fields) (s : State) : Out := issue (.vdot2 f) 0x6A f (vdot2Body 0x6A) s
/-- VRED (R181). -/
def execVred (f : Fields) (s : State) : Out := issue (.vred f) 0x6B f (vredBody 0x6B) s
/-- VCLAMP (R179). -/
def execVclamp (f : Fields) (s : State) : Out := issue (.vclamp f) 0x6C f (elemBody 0x6C) s
/-- VRND (R182). -/
def execVrnd (f : Fields) (s : State) : Out := issue (.vrnd f) 0x6D f (elemBody 0x6D) s
/-- VSCALE (R183). -/
def execVscale (f : Fields) (s : State) : Out := issue (.vscale f) 0x6E f (elemBody 0x6E) s
/-- VCMP (R184). -/
def execVcmp (f : Fields) (s : State) : Out := issue (.vcmp f) 0x70 f (vcmpBody 0x70) s
/-- VSEL (R185). -/
def execVsel (f : Fields) (s : State) : Out := issue (.vsel f) 0x71 f (vselBody 0x71) s
/-- VMOV (R185). -/
def execVmov (f : Fields) (s : State) : Out := issue (.vmov f) 0x72 f (vmovBody 0x72) s
/-- VBCAST (R186). -/
def execVbcast (f : Fields) (s : State) : Out := issue (.vbcast f) 0x73 f (vbcastBody 0x73) s
/-- VEXT (R186). -/
def execVext (f : Fields) (s : State) : Out := issue (.vext f) 0x74 f (vextBody 0x74) s
/-- VPERM (R187). -/
def execVperm (f : Fields) (s : State) : Out := issue (.vperm f) 0x75 f (vpermBody 0x75) s
/-- VROT (R187). -/
def execVrot (f : Fields) (s : State) : Out := issue (.vrot f) 0x76 f (vrotBody 0x76) s
/-- VCOMPRESS (R188). -/
def execVcompress (f : Fields) (s : State) : Out := issue (.vcompress f) 0x77 f (vcompressBody 0x77) s
/-- VEXPAND (R188). -/
def execVexpand (f : Fields) (s : State) : Out := issue (.vexpand f) 0x78 f (vexpandBody 0x78) s
/-- VSCAN (R189). -/
def execVscan (f : Fields) (s : State) : Out := issue (.vscan f) 0x79 f (vscanBody 0x79) s
/-- VCLZ (R190). -/
def execVclz (f : Fields) (s : State) : Out := issue (.vclz f) 0x7A f (elemBody 0x7A) s
/-- VCVT (R191). -/
def execVcvt (f : Fields) (s : State) : Out := issue (.vcvt f) 0x80 f (vcvtBody 0x80) s
/-- VCVTO (R193). -/
def execVcvto (f : Fields) (s : State) : Out := issue (.vcvto f) 0x81 f (vcvtoBody 0x81) s
/-- VPACK (R192). -/
def execVpack (f : Fields) (s : State) : Out := issue (.vpack f) 0x82 f (vpackBody 0x82) s
/-- VUNPACK (R192). -/
def execVunpack (f : Fields) (s : State) : Out := issue (.vunpack f) 0x83 f (vunpackBody 0x83) s
/-- VRCP (R194). -/
def execVrcp (f : Fields) (s : State) : Out := issue (.vrcp f) 0x84 f (sfuBody 0x84) s
/-- VRSQ (R194). -/
def execVrsq (f : Fields) (s : State) : Out := issue (.vrsq f) 0x85 f (sfuBody 0x85) s
/-- VSQRT (R194). -/
def execVsqrt (f : Fields) (s : State) : Out := issue (.vsqrt f) 0x86 f (sfuBody 0x86) s
/-- VEXP2 (R194). -/
def execVexp2 (f : Fields) (s : State) : Out := issue (.vexp2 f) 0x87 f (sfuBody 0x87) s
/-- VLOG2 (R194). -/
def execVlog2 (f : Fields) (s : State) : Out := issue (.vlog2 f) 0x88 f (sfuBody 0x88) s
/-- VSIN (R194). -/
def execVsin (f : Fields) (s : State) : Out := issue (.vsin f) 0x89 f (sfuBody 0x89) s
/-- VCOS (R194). -/
def execVcos (f : Fields) (s : State) : Out := issue (.vcos f) 0x8A f (sfuBody 0x8A) s
/-- VTANH (R194). -/
def execVtanh (f : Fields) (s : State) : Out := issue (.vtanh f) 0x8B f (sfuBody 0x8B) s
/-- VSIGM (R194). -/
def execVsigm (f : Fields) (s : State) : Out := issue (.vsigm f) 0x8C f (sfuBody 0x8C) s
/-- VADD_F32_S (R70). -/
def execVaddF32S (d a b : Operand) (s : State) : Out := issueShort (.vaddF32S d a b) elemBody s
/-- VMUL_F32_S (R70). -/
def execVmulF32S (d a b : Operand) (s : State) : Out := issueShort (.vmulF32S d a b) elemBody s
/-- VFMA_F32_S (R70). -/
def execVfmaF32S (d a b : Operand) (s : State) : Out := issueShort (.vfmaF32S d a b) elemBody s
/-- VADD_I32_S (R70). -/
def execVaddI32S (d a b : Operand) (s : State) : Out := issueShort (.vaddI32S d a b) elemBody s
/-- VAND_S (R70). -/
def execVandS (d a b : Operand) (s : State) : Out := issueShort (.vandS d a b) elemBody s
/-- VMOV_S (R70). -/
def execVmovS (d a : Operand) (s : State) : Out := issueShort (.vmovS d a) vmovBody s
-- END MEANINGS
end Sys2Proof.Machine
end

