-- ==== Sys2Proof/Machine/Local.lean ====
section
/-! DEFINITION. Local loads, stores, the spill stack, fences and local atomics (R198 to R206, R218 to R226): the meanings of
opcodes 0x90 to 0x99 and 0xA0 to 0xA3 and of their short forms. -/
namespace Sys2Proof.Machine

/-- One access of an instruction: its lane, its local address. -/
structure Access where
  lane : Nat
  addr : Word64
/-- Where an access landed. -/
structure Place where
  lane : Nat
  sp : Space
  off : Nat
  addr : Word64 := 0

/-- Base of an address for lane l (R218). -/
def baseOf (x : Ctx) (o : Operand) (l : Nat) : Word64 :=
  match o with
  | .s n => x.sreg n.val
  | .v n => ((x.vreg n.val).get l).setWidth 64
  | _ => 0
/-- Index of an address for lane l (R218). -/
def indexOf (x : Ctx) (o : Operand) (l : Nat) : Word64 :=
  match o with
  | .s n => x.sreg n.val
  | .v n => ((x.vreg n.val).get l).signExtend 64
  | _ => 0
/-- Addr(l) of R218, modulo 2^64. -/
def addrOf (x : Ctx) (f : Fields) (base index : Operand) (scale : Nat) (l : Nat) : Word64 :=
  baseOf x base l + (indexOf x index l <<< scale) + scalarOf x f true f.c

/-- The checks of R199 over the accesses of n bytes: the places, or the cause, the failing lanes and the lowest one's
address; a row-level instruction reports no lanes. -/
def checkAccesses (s : State) (cid n align : Nat) (row : Bool) (as : List Access) : Except (Nat × Word32 × Word64) (List Place) :=
  let bad := as.filter fun a => (s.resolve cid a.addr n).isNone
  let odd := as.filter fun a => a.addr.toNat % align != 0
  let report (c : Nat) (l : List Access) (a : Access) : Except (Nat × Word32 × Word64) (List Place) :=
    .error (c, if row then 0 else maskOf fun i => l.any fun a => a.lane == i, a.addr)
  match bad, odd with
  | a :: _, _ => report 4 bad a
  | [], a :: _ => report 5 odd a
  | [], [] => .ok (as.filterMap fun a => (s.resolve cid a.addr n).map fun p => { lane := a.lane, sp := p.1, off := p.2, addr := a.addr })
/-- Extra cycles of bank conflicts: the most distinct lines in one bank, less one (R200). -/
def conflicts (ps : List Place) : Nat :=
  let ls := (ps.filterMap fun p => match p.sp with | .side g => some (g, p.off / 64) | .scratch _ => none).eraseDups
  (ls.foldl (fun n e => max n (ls.filter fun q => q.1 == e.1 && q.2 % 32 == e.2 % 32).length) 1) - 1
/-- The 64-byte lines that n bytes from an offset on lie in. -/
def linesOf (off n : Nat) : List Nat := (List.range ((off + n - 1) / 64 - off / 64 + 1)).map (off / 64 + ·)
/-- An access waits: a bank of it is held by another context, or has a bank operation of this one under way (R249, R250). -/
def bankWait (s : State) (cid n : Nat) (ps : List Place) : Bool :=
  ps.any fun p => match p.sp with
    | .side g => (linesOf p.off n).any fun k => s.bankHeld cid g (bankOf (64 * k))
        || (gridOf cid == g && (s.ctx cid).bankOps.any fun e => e.2.1.getLsbD (bankOf (64 * k)))
    | .scratch _ => false
/-- A load waits for an earlier store of the row that overlaps it (R218). -/
def storeWait (s : State) (cid n : Nat) (ps : List Place) : Bool := ps.any fun p => (s.ctx cid).storeOverlaps p.sp p.off n

/-- Read every place in order, through the read cache (R205). -/
def loadAll (s : State) (g n : Nat) : List Place → State × List (Nat × Nat)
  | [] => (s, [])
  | p :: ps =>
    let r := s.loadBytes g p.sp p.off n
    let rest := loadAll r.1 g n ps
    (rest.1, (p.lane, leNat r.2) :: rest.2)
/-- A load of n bytes from the place hits the grid's read cache, and goes to no bank (R200, R205). -/
def State.cached (s : State) (g n : Nat) (p : Place) : Bool :=
  p.sp != .side g && [p.off, p.off + n - 1].all fun o => match Tables.get? (s.grid g).rcache (lineKey p.sp o) with | some l => l.valid.getLsbD (o % 64 / 4) | none => false
/-- The places of a load that are read at home. -/
def State.missed (s : State) (g n : Nat) (ps : List Place) : List Place := ps.filter fun p => !s.cached g n p
/-- A load waits for a bank that it reads, or for an earlier store of the row (R218, R249, R250). -/
def loadWait (s : State) (cid n : Nat) (ps : List Place) : Bool := bankWait s cid n (s.missed (gridOf cid) n ps) || storeWait s cid n ps
/-- The latency of a load of n bytes (R198): own side memory 8, a read-cache hit 12, another grid's 40, the scratchpad 60, the least of the range
where the spec gives one (log entry 6). -/
def State.loadLatency (s : State) (g n : Nat) (p : Place) : Nat :=
  if p.sp = .side g then 8
  else if s.cached g n p then 12
  else match p.sp with | .side _ => 40 | .scratch _ => 60
/-- The longest latency of the places. -/
def longest (s : State) (g n : Nat) (ps : List Place) : Nat := ps.foldl (fun d p => max d (s.loadLatency g n p)) 1
/-- The longest latency of the places, and the bank conflicts of those read at home (R198, R200). -/
def loadDelay (s : State) (g n : Nat) (ps : List Place) : Nat := longest s g n ps + conflicts (s.missed g n ps)
def trapRes (e : Nat × Word32 × Word64) : Res := .trap e.1 e.2.1 e.2.2 0
/-- Lane values as a vector. -/
def lanesFrom (vals : List (Nat × Nat)) (h : Nat → Nat) : Lanes :=
  tab 32 fun l => match Tables.get? vals l with | some x => BitVec.ofNat 32 (h x) | none => 0
/-- Ext to 32 bits (R219). -/
def ext32 (t : Ty) (x : Nat) : Nat := if tySigned t then wrap 32 (signed (tyWidth t) x) else x % 2 ^ tyWidth t

/-- The lines that accesses of n bytes lie in. -/
def placeLines (n : Nat) (ps : List Place) : List (Nat × Nat) :=
  (ps.flatMap fun p => (linesOf p.off n).map fun k => sramLine p.sp (64 * k)).eraseDups
/-- The result just put in flight is a load's or an atomic's: its first address, the lines that it read at home, and its poison if one of
them is bad (R325). -/
def State.markLoad (s : State) (cid n : Nat) (ps read : List Place) : State :=
  match ps.head? with
  | none => s
  | some p =>
    let ls := placeLines n read
    s.updCtx cid fun x => { x with inflight := x.inflight.dropLast ++ (x.inflight.drop (x.inflight.length - 1)).map fun r =>
      { r with loadAddr := some p.addr, lines := ls, poison := if ls.any s.lineBad then some p.addr else r.poison } }

/-- The result just put in flight comes from bad storage: its register is poisoned (R325). -/
def State.poisonLast (s : State) (cid : Nat) (bad : Bool) (addr : Word64) : State :=
  if bad then s.updCtx cid fun x => { x with inflight := x.inflight.dropLast ++ (x.inflight.drop (x.inflight.length - 1)).map fun r => { r with poison := some addr } } else s

/-- A vector load from checked places. -/
def vectorLoad (s : State) (cid : Nat) (f : Fields) (mask : Word32) (n : Nat) (ps : List Place) : Res :=
  if loadWait s cid n ps then .stay .fresh
  else
    let d := loadDelay s (gridOf cid) n ps
    let r := loadAll s (gridOf cid) n ps
    .done (((r.1.checked cid).vectorResult cid f d (lanesFrom r.2 (ext32 f.mod)) mask 0 0 [] false false).markLoad cid n ps (s.missed (gridOf cid) n ps))
/-- ld (R219). -/
def ldBody (cid : Nat) (f : Fields) (s : State) : Res :=
  let x := s.ctx cid
  let mask := x.active f
  let n := tyWidth f.mod / 8
  match checkAccesses s cid n n false ((lanesOf mask).map fun l => ⟨l, addrOf x f f.a f.b (f.fn.toNat % 8) l⟩) with
  | .error e => trapRes e
  | .ok ps => vectorLoad s cid f mask n ps
/-- ldb (R221). -/
def ldbBody (cid : Nat) (f : Fields) (s : State) : Res :=
  let x := s.ctx cid
  let mask := x.active f
  match checkAccesses s cid 4 4 false ((lanesOf mask).map fun l => ⟨l, addrOf x f f.a .zero 0 l + BitVec.ofNat 64 (4 * l)⟩) with
  | .error e => trapRes e
  | .ok ps =>
    if loadWait s cid 4 ps then .stay .fresh
    else
      let d := longest s (gridOf cid) 4 ps
      let r := loadAll s (gridOf cid) 4 ps
      .done (((r.1.checked cid).vectorResult cid f d (lanesFrom r.2 id) mask 0 0 [] false false).markLoad cid 4 ps (s.missed (gridOf cid) 4 ps))
/-- st (R219): lanes in increasing order, so that the highest of those writing a byte stays. -/
def stBody (op cid : Nat) (f : Fields) (s : State) : Res :=
  let x := s.ctx cid
  let n := tyWidth f.mod / 8
  let data := (srcsOf s cid op f).a
  match checkAccesses s cid n n false ((lanesOf (x.active f)).map fun l => ⟨l, addrOf x f f.d f.b (f.fn.toNat % 8) l⟩) with
  | .error e => trapRes e
  | .ok ps =>
    if bankWait s cid n ps then .stay .fresh
    else
      let bs := ps.flatMap fun p => (List.range n).map fun i => (p.sp, p.off + i, BitVec.ofNat 8 ((data.get p.lane).toNat >>> (8 * i)))
      .done (((s.popFor cid op f).checked cid).queueStore cid (conflicts ps) bs)
/-- The bytes of one scalar access. -/
def placeBytes (p : Place) (bs : List Byte) : List (Space × Nat × Byte) := (List.range bs.length).map fun i => (p.sp, p.off + i, bs.getD i 0)
/-- sld (R220). -/
def sldBody (cid : Nat) (f : Fields) (s : State) : Res :=
  let x := s.ctx cid
  let n := tyWidth f.mod / 8
  match checkAccesses s cid n n true [⟨0, addrOf x f f.a f.b (f.fn.toNat % 8) 0⟩] with
  | .error e => trapRes e
  | .ok ps =>
    if loadWait s cid n ps then .stay .fresh
    else
      let d := loadDelay s (gridOf cid) n ps
      let r := loadAll s (gridOf cid) n ps
      .done (((r.1.checked cid).launchS cid f d (extTy f.mod ((Tables.get? r.2 0).getD 0))).markLoad cid n ps (s.missed (gridOf cid) n ps))
/-- sst (R220). -/
def sstBody (cid : Nat) (f : Fields) (s : State) : Res :=
  let x := s.ctx cid
  let n := tyWidth f.mod / 8
  match checkAccesses s cid n n true [⟨0, addrOf x f f.d f.b (f.fn.toNat % 8) 0⟩] with
  | .error e => trapRes e
  | .ok ps =>
    if bankWait s cid n ps then .stay .fresh
    else .done ((s.checked cid).queueStore cid 0 (ps.flatMap fun p => placeBytes p (leBytes n (scalarOf x f false f.a).toNat)))
/-- An address of the spill stack is checked against [sidebase, sidelim) (R222, R223). -/
def stackPlace (s : State) (cid : Nat) (addr : Word64) (n align : Nat) : Except (Nat × Word32 × Word64) (List Place) :=
  let sp := (s.blockOf (s.ctx cid)).spanOn (gridOf cid)
  if ¬ (sp.base ≤ addr.toNat ∧ addr.toNat + n ≤ sp.lim) then .error (4, 0, addr)
  else if addr.toNat % align ≠ 0 then .error (5, 0, addr)
  else .ok [⟨0, .side (gridOf cid), addr.toNat, addr⟩]
def State.setSsp (s : State) (cid : Nat) (v : Word64) : State := s.updCtx cid fun x => x.setS 159 v
/-- push (R222). -/
def pushBody (cid : Nat) (f : Fields) (s : State) : Res :=
  let x := s.ctx cid
  let a := x.sreg 159 - 8
  match stackPlace s cid a 8 8 with
  | .error e => trapRes e
  | .ok ps =>
    if bankWait s cid 8 ps then .stay .fresh
    else .done (((s.checked cid).queueStore cid 0 (ps.flatMap fun p => placeBytes p (leBytes 8 (scalarOf x f false f.a).toNat))).setSsp cid a)
/-- pop (R222): nowb leaves the register, ssp moves. -/
def popBody (cid : Nat) (f : Fields) (s : State) : Res :=
  let a := (s.ctx cid).sreg 159
  match stackPlace s cid a 8 8 with
  | .error e => trapRes e
  | .ok ps =>
    if loadWait s cid 8 ps then .stay .fresh
    else
      let r := loadAll s (gridOf cid) 8 ps
      let val := BitVec.ofNat 64 ((Tables.get? r.2 0).getD 0)
      .done ((((r.1.checked cid).setSsp cid (a + 8)).launchS cid f 8 val).markLoad cid 8 ps ps)
/-- vspill (R223): all 32 lanes whatever m0 holds. -/
def vspillBody (cid : Nat) (f : Fields) (s : State) : Res :=
  let x := s.ctx cid
  let a := x.sreg 159 - 128
  let v := match f.a with | .v n => x.vreg n.val | _ => Lanes.zero
  match stackPlace s cid a 128 4 with
  | .error e => trapRes e
  | .ok ps =>
    if bankWait s cid 128 ps then .stay .fresh
    else .done (((s.checked cid).queueStore cid 0 (ps.flatMap fun p => placeBytes p ((List.range 32).flatMap fun l => leBytes 4 (v.get l).toNat))).setSsp cid a)
/-- vfill (R223). -/
def vfillBody (cid : Nat) (f : Fields) (s : State) : Res :=
  let a := (s.ctx cid).sreg 159
  match stackPlace s cid a 128 4 with
  | .error e => trapRes e
  | .ok ps =>
    if loadWait s cid 128 ps then .stay .fresh
    else
      let bs := s.readSpace (.side (gridOf cid)) a.toNat 128
      let v : Lanes := tab 32 fun l => BitVec.ofNat 32 (leNat ((bs.drop (4 * l)).take 4))
      .done ((((s.checked cid).setSsp cid (a + 128)).vectorResult cid f 8 v 0xFFFFFFFF#32 0 0 [] false false).markLoad cid 128 ps ps)

/-- What a release waits for: every store and atomic of the row acknowledged at home (R224). -/
def released (x : Ctx) : Bool := x.stores.isEmpty
/-- fence (R224, R305). -/
def fenceBody (cid : Nat) (f : Fields) (s : State) : Res :=
  let x := s.ctx cid
  let k := f.fn.toNat % 4
  if k ≠ 0 ∧ !released x then .stay .fresh
  else if k = 1 then .done s
  else if !loadsLanded x then .stay .fresh
  else
    let s1 := if k = 3 then { s with fenceOrder := s.fenceOrder + 1 } else s
    .done ((s1.acquire (gridOf cid)).updCtx cid fun x => { x with notBefore := s.now cid + 16 })

/-- The operation of an atomic by its fn bits (R225, R247). -/
def atomOpOf : Nat → AtomOp
  | 0 => .add | 1 => .min | 2 => .max | 3 => .and | 4 => .or | 5 => .xor | 6 => .swap | _ => .cas
/-- Op(old, b) of a width (R225, R247): integers wrap, min and max by the type's sign, f32 add rounds RNE. -/
def atomApply (op : AtomOp) (t : Ty) (old b expected : Nat) : Nat :=
  let w := tyWidth t
  let m (x : Nat) := x % 2 ^ w
  match op with
  | .add => if t = .f32 then (addFp fpF32 0 false old b).1 else m (old + b)
  | .min => if readAs t old ≤ readAs t b then m old else m b
  | .max => if readAs t b ≤ readAs t old then m old else m b
  | .and => m (old &&& b)
  | .or => m (old ||| b)
  | .xor => m (old ^^^ b)
  | .swap => m b
  | .cas => if m old = m expected then m b else m old
/-- A compare that fails writes nothing at home (R226, R247). -/
def atomWrites (op : AtomOp) (t : Ty) (old expected : Nat) : Bool :=
  match op with | .cas => old % 2 ^ tyWidth t == expected % 2 ^ tyWidth t | _ => true
/-- Apply the updates at home one after another, in lane order; the old values (R225). -/
def atomAll (s : State) (g : Nat) (op : AtomOp) (t : Ty) (data expect : Nat → Nat) : List Place → State × List (Nat × Nat)
  | [] => (s, [])
  | p :: ps =>
    let n := tyWidth t / 8
    let old := leNat (s.readSpace p.sp p.off n)
    let new := atomApply op t old (data p.lane) (expect p.lane)
    let s1 := if atomWrites op t old (expect p.lane) then s.homeBytes g (placeBytes p (leBytes n new)) else s
    let rest := atomAll s1 g op t data expect ps
    (rest.1, (p.lane, old) :: rest.2)
/-- The latency of R225, at its least. -/
def atomDelay (g : Nat) (ps : List Place) : Nat :=
  ps.foldl (fun n p => max n (match p.sp with | .side h => if h = g then 10 else 60 | .scratch _ => 80)) 1
/-- The atomic waits as a fence.rel does, by its order in fn[4:3] (R225, R226). -/
def atomHeld (s : State) (cid : Nat) (f : Fields) : Bool := f.fn.getLsbD 4 && !released (s.ctx cid)
/-- The atomic's accesses may go: no bank is held, no overlapping store is on its way. -/
def atomReady (s : State) (cid n : Nat) (ps : List Place) : Bool := !bankWait s cid n ps && !storeWait s cid n ps
/-- Count the atomic among the row's stores until its old value lands (R198); by its order an acquire follows, once that value
and the row's earlier loads have landed (R225). -/
def State.atomOrder (s : State) (cid d : Nat) (f : Fields) : State :=
  s.updCtx cid fun x => { x with stores := x.stores ++ [{ bytes := [], due := s.now cid + d, home := true, atomic := true }]
                                 acqDue := x.acqDue || f.fn.getLsbD 3 }
/-- atom and acas (R225, R226). -/
def atomBody (op cid : Nat) (f : Fields) (s : State) : Res :=
  let x := s.ctx cid
  let mask := x.active f
  let b := (srcsOf s cid op f).b
  let dOld := match f.d with | .v n => x.vreg n.val | _ => Lanes.zero
  let aop := if op = 0xA2 then AtomOp.cas else atomOpOf (f.fn.toNat % 8)
  if atomHeld s cid f then .stay .fresh
  else match checkAccesses s cid 4 4 false ((lanesOf mask).map fun l => ⟨l, addrOf x f f.a .zero 0 l⟩) with
  | .error e => trapRes e
  | .ok ps =>
    if !atomReady s cid 4 ps then .stay .fresh
    else
      let r := atomAll s (gridOf cid) aop f.mod (fun l => (b.get l).toNat) (fun l => (dOld.get l).toNat) ps
      let d := atomDelay (gridOf cid) ps + conflicts ps
      .done (((((r.1.popFor cid op f).checked cid).vectorResult cid f d (lanesFrom r.2 (ext32 f.mod)) mask 0 0 [] false false).markLoad cid 4 ps ps).atomOrder cid d f)
/-- satom and sacas (R225, R226). -/
def satomBody (op cid : Nat) (f : Fields) (s : State) : Res :=
  let x := s.ctx cid
  let n := tyWidth f.mod / 8
  let aop := if op = 0xA3 then AtomOp.cas else atomOpOf (f.fn.toNat % 8)
  let exp := (scalarOf x f false f.d).toNat
  if atomHeld s cid f then .stay .fresh
  else match checkAccesses s cid n n true [⟨0, addrOf x f f.a .zero 0 0⟩] with
  | .error e => trapRes e
  | .ok ps =>
    if !atomReady s cid n ps then .stay .fresh
    else
      let r := atomAll s (gridOf cid) aop f.mod (fun _ => (scalarOf x f false f.b).toNat) (fun _ => exp) ps
      let d := atomDelay (gridOf cid) ps
      .done ((((r.1.checked cid).launchS cid f d (extTy f.mod ((Tables.get? r.2 0).getD 0))).markLoad cid n ps ps).atomOrder cid d f)

/-! ### The meanings -/
-- BEGIN MEANINGS
/-- LD (R219). -/
def execLd (f : Fields) (s : State) : Out := issue (.ld f) 0x90 f (ldBody) s
/-- ST (R219). -/
def execSt (f : Fields) (s : State) : Out := issue (.st f) 0x91 f (stBody 0x91) s
/-- SLD (R220). -/
def execSld (f : Fields) (s : State) : Out := issue (.sld f) 0x92 f (sldBody) s
/-- SST (R220). -/
def execSst (f : Fields) (s : State) : Out := issue (.sst f) 0x93 f (sstBody) s
/-- LDB (R221). -/
def execLdb (f : Fields) (s : State) : Out := issue (.ldb f) 0x94 f (ldbBody) s
/-- VSPILL (R223). -/
def execVspill (f : Fields) (s : State) : Out := issue (.vspill f) 0x95 f (vspillBody) s
/-- VFILL (R223). -/
def execVfill (f : Fields) (s : State) : Out := issue (.vfill f) 0x96 f (vfillBody) s
/-- PUSH (R222). -/
def execPush (f : Fields) (s : State) : Out := issue (.push f) 0x97 f (pushBody) s
/-- POP (R222). -/
def execPop (f : Fields) (s : State) : Out := issue (.pop f) 0x98 f (popBody) s
/-- FENCE (R224). -/
def execFence (f : Fields) (s : State) : Out := issue (.fence f) 0x99 f (fenceBody) s
/-- ATOM (R225). -/
def execAtom (f : Fields) (s : State) : Out := issue (.atom f) 0xA0 f (atomBody 0xA0) s
/-- SATOM (R225). -/
def execSatom (f : Fields) (s : State) : Out := issue (.satom f) 0xA1 f (satomBody 0xA1) s
/-- ACAS (R226). -/
def execAcas (f : Fields) (s : State) : Out := issue (.acas f) 0xA2 f (atomBody 0xA2) s
/-- SACAS (R226). -/
def execSacas (f : Fields) (s : State) : Out := issue (.sacas f) 0xA3 f (satomBody 0xA3) s
/-- LD_I32_S (R70). -/
def execLdI32S (d a : Operand) (s : State) : Out := issueShort (.ldI32S d a) (fun _ => ldBody) s
/-- ST_I32_S (R70). -/
def execStI32S (d a : Operand) (s : State) : Out := issueShort (.stI32S d a) stBody s
-- END MEANINGS
end Sys2Proof.Machine
end

