-- ==== Sys2Proof/Machine/System.lean ====
section
/-! DEFINITION. System instructions: nop, done, trap, tret, brk, special registers, yield, perf, icinv, mpoint (R125, R126,
R167 to R171, R331 to R335), and the barriers' completion that done shares with arrive and bar (R290). -/
namespace Sys2Proof.Machine

/-! ### Barriers (R290) -/
/-- A barrier's key in its block: block barrier k, or barrier k of a band. -/
def barrierKey (band : Option Nat) (k : Nat) : Nat := match band with | none => k | some b => 8 + 8 * b + k
def Block.barrier (b : Block) (key : Nat) : Barrier := (Tables.get? b.barriers key).getD {}
/-- Block-wide row indices of the participants that have not executed done. -/
def State.participants (s : State) (b : Block) (band : Option Nat) : List Nat :=
  (List.range b.rows.length).filter fun k =>
    (match band with | none => true | some n => k / max 1 b.hdr.rows == n) && !(s.ctx (b.rows.getD k 0)).done
/-- The phase completes when every remaining participant has arrived: it advances, the bits clear, the parked wake. -/
def State.completeBarrier (s : State) (blk : Nat) (band : Option Nat) (k : Nat) : State :=
  match s.block? blk with
  | none => s
  | some b =>
    let key := barrierKey band k
    let bar := b.barrier key
    let ps := s.participants b band
    if !ps.isEmpty && ps.all bar.arrived.contains then
      (s.setBlock blk { b with barriers := Tables.set key { phase := bar.phase + 1, arrived := [] } b.barriers }).wakeWhere fun _ x =>
        x.blk == blk && (match x.parked with | some (.barrier bd j _) => bd == band && j == k && (bd.isNone || bd == some x.bandid) | _ => false)
    else s
/-- A row that executes done leaves every set it belongs to (R290). -/
def State.leaveBarriers (s : State) (blk band : Nat) : State :=
  (List.range 8).foldl (fun s k => (s.completeBarrier blk none k).completeBarrier blk (some band) k) s

/-! ### Watches (R292 to R294) -/
/-- Withdraw a context's watch from every filter, and forget it. -/
def State.withdrawWatch (s : State) (cid : Nat) : State :=
  match (s.ctx cid).watch with
  | none => s
  | some w =>
    let keep := fun (e : FilterEntry) => !(e.cid == cid && e.serial == w.serial)
    let s1 := match w.space with
      | some (.side g) => s.updGrid g fun x => { x with filter := x.filter.filter keep }
      | some (.scratch d) => s.updCdie d fun x => { x with filter := x.filter.filter keep }
      | none => (List.range 4).foldl (fun (s : State) m => s.updMdie m fun x => { x with filter := x.filter.filter keep }) s
    s1.updCtx cid fun x => { x with watch := none }

/-! ### Bodies -/
def nopBody (_cid : Nat) (_f : Fields) (s : State) : Res := .done s
/-- Nothing that the context has issued is still in flight (R168). -/
def Ctx.quiet (x : Ctx) : Bool := x.inflight.isEmpty && x.stores.isEmpty && x.loop.isNone && x.bankOps.isEmpty
/-- A context that holds the Baton gives it up for good (R112, R168). -/
def State.leaveBaton (s : State) (cid : Nat) : State :=
  if (s.prow (rowOf cid)).baton = some (planeOf cid) then s.passBaton (rowOf cid) false else s
/-- The row is done (R168): its bank mask goes (R249), the barriers lose it, the Baton passes. -/
def State.markDone (s : State) (cid : Nat) : State :=
  let x := s.ctx cid
  let s1 := (s.releaseBanks cid).updCtx cid fun x => { x with done := true, leaving := false }
  (s1.leaveBarriers x.blk x.bandid).leaveBaton cid
/-- A row whose done has issued is done in the cycle in which the last of what it has in flight is over (R168). -/
def State.leaveRow (s : State) (cid : Nat) : State :=
  match s.ctx? cid with
  | some x => if x.leaving && x.quiet then s.markDone cid else s
  | none => s
/-- done (R168): nothing more issues, and the Baton passes unless a loop in flight keeps it (R112); the row is done at once where nothing is in
flight. -/
def doneBody (cid : Nat) (_f : Fields) (s : State) : Res :=
  let s1 := s.updCtx cid fun x => { x with leaving := true, yieldedUntil := none }
  .done (if (s.ctx cid).quiet then s1.markDone cid else if (s.ctx cid).loop.isNone then s1.leaveBaton cid else s1)
def trapBody (cid : Nat) (f : Fields) (s : State) : Res := .trap 2 0 (scalarOf (s.ctx cid) f false f.a) 0
def brkBody (_cid : Nat) (f : Fields) (_s : State) : Res := .trap 3 0 (BitVec.ofNat 64 (imm16 f)) 0
/-- tret inside a handler (R333); outside one the gate raises cause 0x0C. -/
def tretBody (cid : Nat) (_f : Fields) (s : State) : Res := .jump (s.leaveTrap cid) (s.ctx cid).trappc

/-- The class a grid runs at: during a change, the slower of the two (R122, R124). -/
def runningClass (g : Grid) : Nat := match g.change with | some (n, _) => min g.cls n | none => g.cls
/-- The logical number of a grid (R53). -/
def State.logical (s : State) (g : Nat) : Nat := ((s.cluster (clusterOf g)).map.findIdx? (· == posOf g)).getD 0
/-- The special registers as sget reads them (R170). -/
def specialValue (s : State) (cid idx : Nat) : Word64 :=
  let x := s.ctx cid
  let b := s.blockOf x
  let g := gridOf cid
  let sp := b.spanOn g
  let n (k : Nat) : Word64 := BitVec.ofNat 64 k
  match idx with
  | 0x001 => n x.rowid | 0x002 => n b.hdr.rows | 0x003 => n x.bandid | 0x004 => n b.blkid
  | 0x005 => n (s.logical g) | 0x006 => n (planeOf cid) | 0x007 => n sp.base | 0x008 => n b.node
  | 0x009 => match (s.taskOf b).fut with | some h => h.setWidth 64 | none => 0
  | 0x010 => n sp.base | 0x011 => n sp.lim | 0x012 => n b.scrbase | 0x013 => n b.scrlim
  | 0x020 => n (s.cdie (dieOf g)).clk | 0x021 => n (runningClass (s.grid g)) | 0x022 => n (s.grid g).cadence
  | 0x023 => x.fpflags.setWidth 64
  | 0x030 => x.trapcause.setWidth 64 | 0x031 => x.trapmask.setWidth 64 | 0x032 => x.trappc | 0x033 => x.trapem
  | 0x034 => x.trapop | 0x035 => x.traplit.setWidth 64 | 0x036 => x.trapd.setWidth 64 | 0x037 => x.trapa.setWidth 64
  | 0x038 => x.trapb.setWidth 64 | 0x039 => x.trapc.setWidth 64 | 0x03A => x.trapaddr | 0x03B => x.trapfut
  | 0x03C => x.trapvec | _ => x.emuvec
/-- sget (R169): a second sget of cycles waits for the next C-die clock edge (R170). -/
def sgetBody (cid : Nat) (f : Fields) (s : State) : Res :=
  let idx := sysIndex f
  let now := (s.cdie (dieOf (gridOf cid))).clk
  if idx = 0x020 ∧ (s.ctx cid).cyclesAt = some now then .stay .fresh
  else
    let s1 := s.writeS cid f (specialValue s cid idx)
    .done (if idx = 0x020 then s1.updCtx cid fun x => { x with cyclesAt := some now } else s1)
/-- An address register: bits [63:52] and [1:0] store as 0 (R170). -/
def codeAddr (v : Word64) : Word64 := v &&& 0xFFFFFFFFFFFFC#64
/-- sset to a writable index (R169, R170). -/
def Ctx.setSpecial (x : Ctx) (idx : Nat) (v : Word64) : Ctx :=
  match idx with
  | 0x023 => { x with fpflags := v.setWidth 5 }
  | 0x032 => { x with trappc := codeAddr v }
  | 0x033 => { x with trapem := v &&& 0xFFFFFFFF#64 }
  | 0x03C => { x with trapvec := codeAddr v }
  | 0x03D => { x with emuvec := codeAddr v }
  | _ => x
def ssetBody (cid : Nat) (f : Fields) (s : State) : Res :=
  .done (s.updCtx cid fun x => x.setSpecial (sysIndex f) (scalarOf x f false f.a))
/-- yield (R125): rank −1 for 64 cycles, or until another context of the row issues. -/
def yieldBody (cid : Nat) (_f : Fields) (s : State) : Res :=
  .done (s.updCtx cid fun x => { x with yieldedUntil := some (s.now cid + 64) })
/-- perf (R126): the request reaches the grids at their next Wheel stops. -/
def perfBody (cid : Nat) (f : Fields) (s : State) : Res :=
  let a := scalarOf (s.ctx cid) f false f.a
  let cls := BitVec.ofNat 64 (runningClass (s.grid (gridOf cid)) % 4)
  if a = 0xFFFFFFFFFFFFFFFF#64 then .done ((s.updCtx cid fun x => { x with classReq := none }).writeS cid f cls)
  else if a.toNat ≤ 3 then .done ((s.updCtx cid fun x => { x with classReq := some a.toNat }).writeS cid f cls)
  else .done (s.writeS cid f 0xFFFFFFFFFFFFFFFF#64)
/-- icinv (R91, R171): the grid's instruction cache goes now, fills on their way are discarded on arrival, the row's loop
buffer goes at its next instruction. -/
def icinvBody (cid : Nat) (_f : Fields) (s : State) : Res :=
  .done ((s.updGrid (gridOf cid) fun g => { g with icache := [], fills := g.fills.map fun l => { l with discard := true } }).updCtx cid
    fun x => { x with icinvNext := true })
/-- mpoint (R335): while the grid's migration is pending the row stalls; then it reads whether the grid moved. -/
def mpointBody (cid : Nat) (f : Fields) (s : State) : Res :=
  match (s.ctx cid).stage with
  | .atPoint (some true) => .done (s.writeS cid f 1)
  | _ => if (s.grid (gridOf cid)).migration.isSome then .stay (.atPoint none) else .done (s.writeS cid f 0)

/-! ### The meanings -/
-- BEGIN MEANINGS
/-- NOP (R167). -/
def execNop (f : Fields) (s : State) : Out := issue (.nop f) 0x00 f (nopBody) s
/-- DONE (R168). -/
def execDoneRow (f : Fields) (s : State) : Out := issue (.doneRow f) 0x01 f (doneBody) s
/-- TRAP (R332). -/
def execTrap (f : Fields) (s : State) : Out := issue (.trap f) 0x02 f (trapBody) s
/-- TRET (R333). -/
def execTret (f : Fields) (s : State) : Out := issue (.tret f) 0x03 f (tretBody) s
/-- BRK (R332). -/
def execBrk (f : Fields) (s : State) : Out := issue (.brk f) 0x04 f (brkBody) s
/-- SGET (R169). -/
def execSget (f : Fields) (s : State) : Out := issue (.sget f) 0x05 f (sgetBody) s
/-- SSET (R169). -/
def execSset (f : Fields) (s : State) : Out := issue (.sset f) 0x06 f (ssetBody) s
/-- YIELD (R125). -/
def execYield (f : Fields) (s : State) : Out := issue (.yield f) 0x07 f (yieldBody) s
/-- PERF (R126). -/
def execPerf (f : Fields) (s : State) : Out := issue (.perf f) 0x08 f (perfBody) s
/-- ICINV (R171). -/
def execIcinv (f : Fields) (s : State) : Out := issue (.icinv f) 0x09 f (icinvBody) s
/-- MPOINT (R335). -/
def execMpoint (f : Fields) (s : State) : Out := issue (.mpoint f) 0x0A f (mpointBody) s
/-- NOP_S (R70). -/
def execNopS (s : State) : Out := issueShort (.nopS) (fun _ => nopBody) s
/-- DONE_S (R70). -/
def execDoneS (s : State) : Out := issueShort (.doneS) (fun _ => doneBody) s
-- END MEANINGS
end Sys2Proof.Machine
end

