-- ==== Sys2Proof/Machine/Translate.lean ====
section
/-! DEFINITION. Device addresses (R208 to R210), the range table (R211, R212), page walks and the TLB (R213, R214), the statuses
of R215. -/
namespace Sys2Proof.Machine

/-- Entries of the interleave table below j that hold m (R209). -/
def rankOf (it : List Nat) (m j : Nat) : Nat := ((it.take j).filter (· == m)).length
/-- The direct physical address of the byte that a PA names; none when it names no memory (R208, R209). -/
def homeOf (it : List Nat) (pa : Nat) : Option Nat :=
  let tier := field pa 47 1
  if pa ≥ 2 ^ 48 then none
  else if bitAt pa 44 then
    let y := field pa 0 44
    if field pa 45 2 ≠ 0 ∨ (tier = 0 ∧ y ≥ 2 ^ 39) ∨ (tier = 1 ∧ y ≥ 2 ^ 40) then none
    else
      let j := field y 12 8
      let m := it.getD j 0
      some (tier * 2 ^ 47 + m * 2 ^ 45 + field y 20 24 * 2 ^ 18 + rankOf it m j * 2 ^ 12 + field y 0 12)
  else if tier = 0 then (if field pa 37 7 = 0 then some pa else none)
  else if field pa 38 6 = 0 then some pa else none
def State.homeOf (s : State) (pa : Nat) : Option Nat := Sys2Proof.Machine.homeOf s.itable pa
/-- The M-die of a direct address (R208). -/
def mdieOf (a : Nat) : Nat := field a 45 2

/-- The bytes at a direct address lie in a page retired for a lasting fault, or in a failed stack (R325, R352, R355). -/
def State.stackBad (s : State) (a : Nat) : Bool := !bitAt a 47 && s.badStacks.contains (2 * mdieOf a + field a 36 1)
def State.memBad (s : State) (a : Nat) : Bool := s.badPages.contains (a / 4096) || s.stackBad a

/-- What a VA translates to. -/
inductive Trans
  /-- kind (0 local, 1 fabric, 2 host), target address, readable, writable, atomic-uncached -/
  | ok (kind target : Nat) (r w atom : Bool)
  | fail (status : Nat)
  /-- a page walk is needed (R212) -/
  | miss
  deriving DecidableEq, Repr

/-- The lowest-numbered valid range entry of f that holds a VA (R211, R212), with its translation. -/
def rangeTrans (e : RangeEntry) (va : Nat) : Trans :=
  let kind := bitsOf e.attr 5 4
  let off := e.off.toNat
  let bad := kind = 3 ∨ (kind = 0 ∧ off ≥ 2 ^ 48) ∨ (kind = 1 ∧ off ≥ 2 ^ 58)
  if bad then .fail 4
  else
    let d := va - bitsOf e.base 51 12 * 4096
    .ok kind (off + d) (e.attr.getLsbD 1) (e.attr.getLsbD 2) (e.attr.getLsbD 3)
def rangeHolds (e : RangeEntry) (fn va : Nat) : Bool :=
  e.attr.getLsbD 0 && bitsOf e.attr 20 16 == fn && decide (bitsOf e.base 51 12 ≤ va / 4096) && decide (va / 4096 ≤ bitsOf e.lim 51 12)
/-- A leaf page entry's translation of a VA (R213). -/
def leafTrans (size leaf va : Nat) : Trans :=
  let kind := field leaf 6 2
  let addr := field leaf 12 36 * 2 ^ 12
  let base := addr / 2 ^ size * 2 ^ size
  let t := base + va % 2 ^ size
  .ok kind (if kind = 1 then field leaf 48 10 * 2 ^ 48 + t else t) (bitAt leaf 2) (bitAt leaf 3) (bitAt leaf 4)
/-- The level's low VA bit and the number of index bits (R213). -/
def levelShift (level : Nat) : Nat := 12 + 9 * (level - 1)
/-- The reserved and kind rules of an entry (R213). -/
def entryBad (e : Nat) : Bool :=
  field e 58 6 != 0 || field e 8 4 != 0 || field e 6 2 == 3 || (field e 6 2 != 1 && field e 48 10 != 0)
/-- One level of the walk (R213): a leaf, or on to the next table; reads tables at home. Where c64 and kind have no meaning they fail it (log
entry 98). -/
def walk (s : State) (va : Nat) : Nat → Nat → Except Nat (Nat × Nat)
  | 0, _ => .error 4
  | level + 1, table =>
    let l := level + 1
    let idx := if l = 4 then field va 39 13 else field va (levelShift l) 9
    match s.homeOf (table + 8 * idx) with
    | none => .error 4
    | some a =>
      let e := s.home.num a 8
      let addr := field e 12 36 * 2 ^ 12
      if s.memBad a then .error 6
      else if !bitAt e 0 then .error 1
      else if entryBad e then .error 4
      else if bitAt e 1 then
        if l = 4 then .error 4
        else if l = 1 ∧ bitAt e 5 then
          let group := (List.range 16).map fun i => match s.homeOf (table + 8 * (idx / 16 * 16 + i)) with | some b => s.home.num b 8 | none => 0
          let key (x : Nat) := x - field x 12 4 * 2 ^ 12
          if (group.all fun x => key x == key e) then .ok (16, e) else .error 4
        else if bitAt e 5 then .error 4
        else
          let size := levelShift l
          if addr % 2 ^ size = 0 then .ok (size, e) else .error 4
      else if l = 1 ∨ bitAt e 5 ∨ field e 6 2 ≠ 0 then .error 4
      else walk s va level addr
/-- A whole walk of function f for a VA (R213): the page, or the status. -/
def walkFrom (s : State) (fn va : Nat) : Except Nat Page :=
  let root := (s.func fn).ptroot
  if !bitAt root 0 then .error 1
  else match walk s va 4 (field root 16 32 * 2 ^ 16) with
    | .ok (size, e) => .ok { fn := fn, base := va / 2 ^ size * 2 ^ size, size := size, leaf := e }
    | .error st => .error st
/-- Translation of a VA for function fn in cluster c (R212). -/
def State.translate (s : State) (c fn va : Nat) : Trans :=
  if va ≥ 2 ^ 52 then .fail 1
  else match s.ranges.find? fun e => rangeHolds e.2 fn va with
  | some e => rangeTrans e.2 va
  | none => match (s.cluster c).tlb.find? fun p => p.fn == fn && p.base == va / 2 ^ p.size * 2 ^ p.size with
    | some p => leafTrans p.size p.leaf va
    | none =>
      match (s.cdie (c / 2)).walkFails.find? fun w => w.1 == fn && w.2.1 == va / 4096 with
      | some w => .fail w.2.2.1
      | none => .miss
/-- The PAs of the entries that a walk reads, from a level's table down. -/
def walkPas (s : State) (va : Nat) : Nat → Nat → List Nat
  | 0, _ => []
  | level + 1, table =>
    let pa := table + 8 * (if level = 3 then field va 39 13 else field va (levelShift (level + 1)) 9)
    match s.homeOf pa with
    | none => [pa]
    | some a =>
      let e := s.home.num a 8
      pa :: (if bitAt e 0 && !bitAt e 1 then walkPas s va level (field e 12 36 * 2 ^ 12) else [])
/-- The PAs that a walk of function fn for a VA reads; none with its root disabled. -/
def walkReads (s : State) (fn va : Nat) : List Nat :=
  let root := (s.func fn).ptroot
  if bitAt root 0 then walkPas s va 4 (field root 16 32 * 2 ^ 16) else []
/-- A walk of function fn for a VA reads a table that lay in a failed stack (R44). -/
def State.walkLost (s : State) (fn va : Nat) : Bool :=
  (walkReads s fn va).any fun pa => match s.homeOf pa with | some a => s.stackBad a | none => false
/-- A request to an interleaved PA is held while the interleave table is being rewritten (R210). -/
def State.heldPa (s : State) (pa : Nat) : Bool := s.itbusy && bitAt pa 44
/-- A walk that a rewrite of the interleave table holds back (R210). -/
def State.walkHeld (s : State) (fn va : Nat) : Bool := s.itbusy && (walkReads s fn va).any s.heldPa
/-- C-die d is walking a granule. -/
def State.walking (s : State) (d fn granule : Nat) : Bool := (s.cdie d).walks.any fun w => w.1 == fn && w.2.1 == granule
/-- A miss joins the walk of its granule, starts one, or queues for one behind the misses that already wait for one (R214); those that a table
rewrite holds back keep no other waiting (R210). -/
def State.startWalk (s : State) (c fn va : Nat) : State :=
  let d := c / 2
  let g := va / 4096
  if s.walking d fn g || (s.cluster c).walkQueue.contains (fn, g) then s
  else if (s.cdie d).walks.length < 64 ∧ ((s.cluster c).walkQueue.all fun q => s.walkHeld q.1 (4096 * q.2)) ∧ !s.walkHeld fn va then s.updCdie d fun x => { x with walks := x.walks ++ [(fn, g, x.clk + 1)] }
  else s.updCluster c fun x => { x with walkQueue := x.walkQueue ++ [(fn, g)] }
/-- Free walks of a die take queued misses, from its two cluster queues in turn; a miss whose granule is being walked joins that
walk (R214); one that a table rewrite holds back lets the next go (R210). -/
def State.takeWalks (s : State) (d : Nat) : Nat → State
  | 0 => s
  | n + 1 =>
    let t := (s.cdie d).turn
    let head (c : Nat) : Option (Nat × Nat) := (s.cluster c).walkQueue.find? fun q => !s.walkHeld q.1 (4096 * q.2)
    let c0 := 2 * d + t % 2
    let c1 := 2 * d + (t + 1) % 2
    let pick := match head c0, head c1 with
      | some q, _ => some (c0, q, (t + 1) % 2)
      | none, some q => some (c1, q, t % 2)
      | none, none => none
    match pick with
    | none => s
    | some (c, q, t2) =>
      if 64 ≤ (s.cdie d).walks.length then s
      else
        let s1 := s.updCluster c fun x => { x with walkQueue := x.walkQueue.erase q }
        let s2 := if s.walking d q.1 q.2 then s1 else s1.updCdie d fun x => { x with walks := x.walks ++ [(q.1, q.2, x.clk + 1)], turn := t2 }
        s2.takeWalks d n
def State.nextWalk (s : State) (d : Nat) : State := s.takeWalks d ((s.cluster (2 * d)).walkQueue.length + (s.cluster (2 * d + 1)).walkQueue.length)
/-- The failed walks of a function are forgotten when its root or its pages change (R212). -/
def State.forgetFails (s : State) (fn : Nat) : State :=
  { s with cdies := s.cdies.map fun (e : Nat × CDie) => (e.1, { e.2 with walkFails := e.2.walkFails.filter fun w => w.1 != fn }) }
/-- A physical target checked to name memory (R208): the direct address, or status 4. -/
def State.localHome (s : State) (pa : Nat) : Except Nat Nat :=
  match s.homeOf pa with | some a => .ok a | none => .error 4

end Sys2Proof.Machine
end

