-- ==== Sys2Proof/Machine/Global.lean ====
section
/-! DEFINITION. Global memory beyond the rows: writes at home with the watches they trigger (R292), what goes out to a peer or
the host, and the die cache with its dirty masks and forward tags (R203, R217, R314). -/
namespace Sys2Proof.Machine

/-- Fire the watches of a global line at its home Pond (R292). -/
def State.fireHome (s : State) (line : Nat) : State :=
  let m := mdieOf (64 * line)
  let r := fireFilter (s.mdie m).filter line
  if r.2.isEmpty then s
  else
    let t := s.updMdie m fun x => { x with filter := r.1 }
    { t with wakes := t.wakes ++ r.2 }
/-- A write reaches home at a direct address (R208): one that changes a byte triggers the watches of the lines (R292). -/
def State.writeHome (s : State) (a : Nat) (bs : List Byte) : State :=
  if s.home.readN a bs.length = bs then s
  else
    let t := { s with home := s.home.writeN a bs }
    let lines := ((List.range bs.length).map fun i => (a + i) / 64).eraseDups
    let changed := lines.filter fun l => (List.range bs.length).any fun i => (a + i) / 64 == l && s.home.read (a + i) != bs.getD i 0
    changed.foldl (fun t l => t.fireHome l) t
/-- A read of n bytes at a target of a kind: this device's memory, or none where a peer or the host holds it. -/
def State.readTarget (s : State) (kind target n : Nat) : Option (List Byte) :=
  if kind = 0 then (s.homeOf target).map fun a => s.home.readN a n else none
/-- A write of bytes that lie in one line at a target: at home here, or sent to the peer or the host. One to a page that cannot be written any more
fails (R352), and nothing is written; nobody is told of it (log entry 117). -/
def State.writeTarget (s : State) (kind target : Nat) (bs : List Byte) : State :=
  if bs.isEmpty then s
  else if kind = 0 then match s.homeOf target with | some a => if s.memBad a then s else s.writeHome a bs | none => s
  else s.emit (.memRequest kind target (.write bs))
/-- A write-back of the die cache: one to a peer or the host is awaited until it is acknowledged (R313, log entry 89), one to an interleaved
PA is held back while the interleave table is rewritten (R210). -/
def State.writeBack (s : State) (kind target : Nat) (bs : List Byte) : State :=
  if bs.isEmpty then s
  else if kind = 0 ∧ s.heldPa target then { s with heldBacks := s.heldBacks ++ [(s.peerNext, target, bs)], peerNext := s.peerNext + 1 }
  else
    let t := s.writeTarget kind target bs
    if kind = 0 then t else { t with peerWrites := t.peerWrites ++ [t.peerNext], peerNext := t.peerNext + 1 }
/-- The write-backs numbered below a mark are all acknowledged at home (R313). -/
def State.backTo (s : State) (mark : Nat) : Bool := s.peerWrites.all (fun w => decide (mark ≤ w)) && s.heldBacks.all fun w => decide (mark ≤ w.1)
/-- The peer or the host that took a write-back acknowledges it (R313). -/
def State.ackWrite (s : State) (n : Nat) : State := { s with peerWrites := s.peerWrites.filter (· != n) }
/-- What a rewrite of the interleave table has held back goes on, the write-backs first, under the table that is then current (R210). -/
def State.releaseHeld (s : State) : State :=
  s.heldBacks.foldl (fun (t : State) w => t.writeTarget 0 w.2.1 w.2.2) { s with heldBacks := [], heldReqs := [], agenda := s.heldReqs.map .event ++ s.agenda }

/-! ### The die cache -/

/-- Lines of a die cache under a split (R203). -/
def dieCacheLines (split : Nat) : Nat := match split with | 0 => 0 | 1 => 16 * 2 ^ 14 | 2 => 32 * 2 ^ 14 | _ => 64 * 2 ^ 14
/-- A line's key: its function and its VA. -/
def dkey (fn va : Nat) : Nat := fn * 2 ^ 46 + va / 64
/-- A mask of the bytes of a line for which a predicate holds. -/
def byteMask (p : Nat → Bool) : Word64 :=
  BitVec.ofNat 64 ((List.range 64).foldl (fun acc i => if p i then acc + 2 ^ i else acc) 0)
/-- Maximal runs of set bits of a mask: start and length. -/
def runsFrom (m : Word64) : Nat → Nat → List (Nat × Nat)
  | 0, _ => []
  | k + 1, i =>
    let rest := runsFrom m k (i + 1)
    if !m.getLsbD i then rest
    else match rest with
      | (j, n) :: t => if j = i + 1 then (i, n + 1) :: t else (i, 1) :: rest
      | [] => [(i, 1)]
def runsOf (m : Word64) : List (Nat × Nat) := runsFrom m 64 0
def State.dline? (s : State) (d key : Nat) : Option DLine := Tables.get? (s.cdie d).dcache key
def State.setDline (s : State) (d key : Nat) (l : DLine) : State :=
  s.updCdie d fun x => { x with dcache := if l.valid = 0 then Tables.erase x.dcache key else Tables.set key l x.dcache }
/-- Write the dirty bytes of a mask home; they stay, clean and untagged (R217). -/
def State.flushLine (s : State) (d key : Nat) (mask : Word64) : State :=
  match s.dline? d key with
  | none => s
  | some l =>
    let m := l.dirty &&& mask
    if m = 0 then s
    else
      let t := (runsOf m).foldl (fun (s : State) r => s.writeBack l.kind (l.target + r.1) ((l.bytes.drop r.1).take r.2)) s
      t.setDline d key { l with dirty := l.dirty &&& ~~~m, tags := l.tags.filter fun e => !m.getLsbD e.1 }
/-- A line leaves the die cache: its dirty bytes go home, forwarded ones too (R217, R314). -/
def State.evictLine (s : State) (d key : Nat) : State :=
  let t := s.flushLine d key 0xFFFFFFFFFFFFFFFF
  t.updCdie d fun x => { x with dcache := Tables.erase x.dcache key }
/-- The line of a VA ready to take bytes: one that was reached at another target is written home first, and a full cache
evicts its first line. -/
def State.makeLine (s : State) (d fn va kind target : Nat) : State × DLine :=
  let key := dkey fn va
  let fresh : DLine := { fn := fn, va := va / 64 * 64, kind := kind, target := target, bytes := List.replicate 64 0, valid := 0, dirty := 0 }
  match s.dline? d key with
  | some l => if l.kind = kind ∧ l.target = target then (s, l) else (s.evictLine d key, fresh)
  | none =>
    if (s.cdie d).dcache.length < dieCacheLines s.dsplit then (s, fresh)
    else match (s.cdie d).dcache.head? with
      | some e => (s.evictLine d e.1, fresh)
      | none => (s, fresh)
/-- All 64 bytes of a VA's line through die cache d, the missing ones filled from home (R217). -/
def State.readCached (s : State) (d fn va kind target : Nat) (atHome : List Byte) : State × List Byte :=
  let r := s.makeLine d fn va kind target
  let l := r.2
  let bytes := (List.range 64).map fun i => if l.valid.getLsbD i then l.bytes.getD i 0 else atHome.getD i 0
  (r.1.setDline d (dkey fn va) { l with bytes := bytes, valid := 0xFFFFFFFFFFFFFFFF }, bytes)
/-- Bytes written into die cache d: dirty, and no longer forwarded bytes of another task (R217, R314). -/
def State.writeCached (s : State) (d fn va kind target : Nat) (at_ : Nat) (bs : List Byte) (tag : Option (Nat × Nat)) : State :=
  let r := s.makeLine d fn va kind target
  let l := r.2
  let m := byteMask fun i => decide (at_ ≤ i) && decide (i < at_ + bs.length)
  let bytes := (List.range 64).map fun i => if m.getLsbD i then bs.getD (i - at_) 0 else l.bytes.getD i 0
  let kept := l.tags.filter fun e => !m.getLsbD e.1
  let tags := match tag with | none => kept | some t => (List.range bs.length).foldl (fun tg i => Tables.set (at_ + i) t tg) kept
  r.1.setDline d (dkey fn va) { l with bytes := bytes, valid := l.valid ||| m, dirty := l.dirty ||| m, tags := tags }

/-- DIE_CACHE_EVICT (R217): a line leaves die cache d. -/
def execDieCacheEvict (d line : Nat) (s : State) : Out := .next (s.evictLine d line)

end Sys2Proof.Machine
end

