-- ==== Sys2Proof/Machine/Sync.lean ====
section
/-! DEFINITION. Futures, barriers, monitors and ranges as instructions (R285 to R298): the meanings of opcodes 0xD0 to 0xDD. -/
namespace Sys2Proof.Machine

/-- The handle in a scalar register (R277). -/
def handleArg (x : Ctx) (f : Fields) : Word32 := (scalarOf x f false f.a).setWidth 32
/-- An acquire by the row (R224): once its loads have landed the unowned words go, 16 cycles; nothing issues before that. -/
def State.acquireRow (s : State) (cid : Nat) : State :=
  if loadsLanded (s.ctx cid) then (s.acquire (gridOf cid)).updCtx cid fun x => { x with notBefore := s.now cid + 16 }
  else s.updCtx cid fun x => { x with acqDue := true }
/-- A future that the row's own block holds unreleased in the journal (R46). -/
def State.unreleased (s : State) (cid : Nat) (h : Word32) : Bool :=
  s.journal.any fun j => j.blk == (s.ctx cid).blk && j.fut == some h

/-- The status word that the row reports (R286): pending for its own block's record that is not released yet (R46). -/
def State.reported (s : State) (cid : Nat) (h : Word32) : Word64 := if s.unreleased cid h then 0 else s.futureStatus h

/-- fnew (R287): 0 when no entry is free. -/
def fnewBody (cid : Nat) (f : Fields) (s : State) : Res :=
  let x := s.ctx cid
  match s.allocFuture (clusterOf (gridOf cid)) 0 (some x.blk) (s.blockOf x).reserve with
  | some (s1, h) => .done (s1.writeS cid f (h.setWidth 64))
  | none => .done (s.writeS cid f 0)
/-- fset (R288). -/
def fsetBody (cid : Nat) (f : Fields) (s : State) : Res :=
  let x := s.ctx cid
  let h := handleArg x f
  match s.future? h with
  | none => .trap 8 0 0 (h.setWidth 64)
  | some e =>
    if !released x then .stay .fresh
    else if e.kind ≠ 0 then .done (s.writeS cid f 2)
    else if e.state ≠ 1 then .done (s.writeS cid f 1)
    else
      let v := scalarOf x f false f.b
      let s1 := if f.fn.getLsbD 0 then s.settle h 3 v (if bitsOf v 63 56 = 7 then 7 else 6) else s.settle h 2 v 0
      .done (s1.writeS cid f 0)
/-- Whether a status word reports a join: state 1, 2 or 3 (R286). -/
def joins (w : Word64) : Bool := let k := w.toNat % 256; k == 1 || k == 2 || k == 3
/-- fget (R287): a report of a settled future is an acquire (R286). -/
def fgetBody (cid : Nat) (f : Fields) (s : State) : Res :=
  let h := handleArg (s.ctx cid) f
  let w := s.reported cid h
  let v : Word64 := match s.future? h with | some e => if w = 0 then 0 else e.value | none => 0
  match f.d with
  | .s n =>
    let s1 := s.updCtx cid fun x => (x.setS n.val v).setS (n.val + 1) w
    .done (if joins w then s1.acquireRow cid else s1)
  | _ => .done s
/-- fwait (R287): parks while the entry is pending, but not on its own block's unreleased record (R46). -/
def fwaitBody (cid : Nat) (f : Fields) (s : State) : Res :=
  let x := s.ctx cid
  let h := handleArg x f
  let w := match x.woken with | some (k, st) => if k = h then st else s.reported cid h | none => s.reported cid h
  if w = 0 ∧ !s.unreleased cid h then .park s (.future h) (.fwaiting h)
  else
    let s1 := s.writeS cid f w
    .done (if joins w then s1.acquireRow cid else s1)
/-- ftest (R287). -/
def ftestBody (cid : Nat) (f : Fields) (s : State) : Res :=
  let w := s.reported cid (handleArg (s.ctx cid) f)
  let s1 := s.writeS cid f w
  .done (if joins w then s1.acquireRow cid else s1)
/-- fmov (R287): the handle, unmarked. -/
def fmovBody (cid : Nat) (f : Fields) (s : State) : Res := .done (s.writeS cid f ((handleArg (s.ctx cid) f).setWidth 64))
/-- fcancel (R289). -/
def fcancelBody (cid : Nat) (f : Fields) (s : State) : Res :=
  let h := handleArg (s.ctx cid) f
  match s.future? h with
  | none => .trap 8 0 0 (h.setWidth 64)
  | some e =>
    if e.kind = 2 then .done (s.writeS cid f 2)
    else if e.state ≠ 1 then .done (s.writeS cid f 1)
    else .done ((s.settle h 4 0 9).writeS cid f 0)

/-! ### Barriers (R291) -/
/-- The band of a barrier instruction: none for a block barrier. -/
def bandArg (x : Ctx) (f : Fields) : Option Nat := if f.fn.getLsbD 3 then some x.bandid else none
def barArg (f : Fields) : Nat := f.fn.toNat % 8
/-- Arrive(k): the token, and the state with the arrived bit set and the phase completed if it was the last. -/
def State.arriveAt (s : State) (cid : Nat) (band : Option Nat) (k : Nat) : Option (State × Word32) :=
  let x := s.ctx cid
  match s.block? x.blk with
  | none => none
  | some b =>
    let key := barrierKey band k
    let bar := b.barrier key
    if !released x || bar.arrived.contains x.k then none
    else some ((s.setBlock x.blk { b with barriers := Tables.set key { bar with arrived := bar.arrived ++ [x.k] } b.barriers }).completeBarrier x.blk band k, bar.phase)
/-- Await(k, tok)'s condition. -/
def State.phasePassed (s : State) (cid : Nat) (band : Option Nat) (k : Nat) (tok : Word32) : Bool :=
  let d := (((s.blockOf (s.ctx cid)).barrier (barrierKey band k)).phase - tok).toNat
  decide (1 ≤ d) && decide (d < 2 ^ 31)
/-- Await(k, tok). -/
def awaitAt (s : State) (cid : Nat) (band : Option Nat) (k : Nat) (tok : Word32) (st : Stage) : Res :=
  if s.phasePassed cid band k tok then .done (s.acquireRow cid) else .park s (.barrier band k tok) st
def arriveBody (cid : Nat) (f : Fields) (s : State) : Res :=
  match s.arriveAt cid (bandArg (s.ctx cid) f) (barArg f) with
  | some (s1, tok) => .done (s1.writeS cid f (tok.setWidth 64))
  | none => .stay .fresh
def awaitBody (cid : Nat) (f : Fields) (s : State) : Res :=
  awaitAt s cid (bandArg (s.ctx cid) f) (barArg f) ((scalarOf (s.ctx cid) f false f.a).setWidth 32) .fresh
def barBody (cid : Nat) (f : Fields) (s : State) : Res :=
  let band := bandArg (s.ctx cid) f
  match (s.ctx cid).stage with
  | .arrived tok => awaitAt s cid band (barArg f) tok (.arrived tok)
  | _ => match s.arriveAt cid band (barArg f) with
    | some (s1, tok) => awaitAt s1 cid band (barArg f) tok (.arrived tok)
    | none => .stay .fresh

/-! ### Monitors (R292 to R294) -/
/-- The wake of a context merges with one not yet consumed (R294). -/
def mergeWake (old : Option Nat) (r : Nat) : Option Nat := if old = some 0 ∨ r = 0 then some 0 else some r
/-- A wake reaches its context: discarded when its watch was withdrawn (R293), else kept, and the parked mwait goes on. -/
def State.deliverWake (s : State) (cid serial reason : Nat) : State :=
  match s.ctx? cid with
  | none => s
  | some x => match x.watch with
    | some w => if w.serial = serial then
        s.setCtx cid { x with watch := none, wake := mergeWake x.wake reason
                              parked := match x.parked with | some (.watch _) => none | p => p }
      else s
    | none => s
/-- Add an entry to a filter of a capacity; the oldest is displaced when it is full, and its wake sent (R292). -/
def addFilter (cap : Nat) (fl : List FilterEntry) (e : FilterEntry) : List FilterEntry × List (Nat × Nat × Nat) :=
  if fl.length < cap then (fl ++ [e], []) else (fl.drop 1 ++ [e], (fl.take 1).map fun o => (o.cid, o.serial, 2))
/-- Arm a watch at its home filter with the line's contents as the reference (R292, R293). -/
def State.armWatch (s : State) (cid : Nat) (sp : Option Space) (line : Nat) (addr : Word64) : State :=
  let n := s.watchSerial + 1
  let s0 := { s with watchSerial := n }
  let ref := match sp with
    | some p => s.readSpace p (64 * line) 64
    | none => s.home.readN (64 * line) 64
  let e : FilterEntry := { line := line, reference := ref, cid := cid, serial := n }
  let s1 := match sp with
    | some (.side g) =>
      let r := addFilter 128 (s0.grid g).filter e
      let t := s0.updGrid g fun x => { x with filter := r.1 }
      { t with wakes := t.wakes ++ r.2 }
    | some (.scratch d) =>
      let r := addFilter 2048 (s0.cdie d).filter e
      let t := s0.updCdie d fun x => { x with filter := r.1 }
      { t with wakes := t.wakes ++ r.2 }
    | none =>
      let m := mdieOf (64 * line)
      let r := addFilter 4096 (s0.mdie m).filter e
      let t := s0.updMdie m fun x => { x with filter := r.1 }
      { t with wakes := t.wakes ++ r.2 }
  s1.updCtx cid fun x => { x with watch := some { space := sp, line := line, serial := n, addr := addr } }
/-- The request for a new watch takes some cycles to its line's home; the context's previous watch stands as it is until no check is left that
mon could trap on (R324). -/
def monArm (s : State) (cid : Nat) (sp : Option Space) (line delay : Nat) : Res := .hold s (.arming (s.now cid + delay) sp line)
/-- The previous watch is withdrawn and an unconsumed wake dropped, then the new watch is armed (R293). -/
def State.rewatch (s : State) (cid : Nat) (sp : Option Space) (line : Nat) (addr : Word64) : State :=
  ((s.withdrawWatch cid).updCtx cid fun x => { x with wake := none }).armWatch cid sp line addr
/-- mon's checks and its request (R293); the translation is waited for until a cycle (R216), but one that a rewrite of the interleave table holds
back has not issued yet (R210). -/
def monAsk (cid : Nat) (f : Fields) (until_ : Nat) (s : State) : Res :=
  let x := s.ctx cid
  let b := s.blockOf x
  let a := scalarOf x f false f.a
  if f.fn.getLsbD 0 then
    let va := a.toNat % 2 ^ 52
    if bitsOf a 59 52 ≠ 0 then .trap 4 0 a 0
    else
      let reg := bitsOf a 63 60
      let r := b.hdr.regions.getD reg {}
      if ¬ (reg < b.hdr.nreg ∧ r.isAtomic ∧ r.holds va) then .trap 7 0 (BitVec.ofNat 64 va) 0
      else match s.translate (clusterOf (gridOf cid)) b.fn va with
        | .miss =>
          if s.walkHeld b.fn va then .hold (s.startWalk (clusterOf (gridOf cid)) b.fn va) (.walking (s.now cid + 2 ^ 20))
          else if until_ ≤ s.now cid then .trap 6 0 (BitVec.ofNat 64 va) 0 else .hold (s.startWalk (clusterOf (gridOf cid)) b.fn va) (.walking until_)
        | .ok 0 target _ _ true => match s.localHome target with
          | .ok _ => if s.heldPa target then .hold s (.walking (s.now cid + 2 ^ 20)) else monArm s cid none (target / 64) 1
          | .error _ => .trap 6 0 (BitVec.ofNat 64 va) 0
        | _ => .trap 6 0 (BitVec.ofNat 64 va) 0
  else
    match s.resolve cid a 1 with
    | none => .trap 4 0 a 0
    | some (sp, off) => monArm s cid (some sp) (off / 64) (match sp with | .side g => if g = gridOf cid then 8 else 40 | .scratch _ => 60)
/-- mon's request at the home of its line (R293): the watch takes the place of the previous one; a line of a retired page fails with status 6 (R352), and one of a failed
stack fails the task as well (R44). -/
def monHome (cid : Nat) (f : Fields) (sp : Option Space) (line : Nat) (s : State) : Res :=
  let a := scalarOf (s.ctx cid) f false f.a
  let va : Word64 := BitVec.ofNat 64 (a.toNat % 2 ^ 52)
  match sp with
  | some p => .done (s.rewatch cid (some p) line a)
  | none => match s.homeOf (64 * line) with
    | some h =>
      if s.stackBad h then .trapWith (s.failTask (s.blockOf (s.ctx cid)).task 6 0) 6 0 va 0
      else if s.memBad h then .trap 6 0 va 0
      else .done (s.rewatch cid none (h / 64) a)
    | none => .trap 6 0 va 0
/-- mon (R293): it completes when its watch is armed at the home filter, with the line's contents then as the reference (R295). A request lost with
a link times out, and its task restarts (R216, R355). -/
def monBody (cid : Nat) (f : Fields) (s : State) : Res :=
  match (s.ctx cid).stage with
  | .arming due sp line => if s.now cid < due then .stay (.arming due sp line) else monHome cid f sp line s
  | .lost until_ line =>
    if s.now cid < until_ then .stay (.lost until_ line)
    else .trapWith (s.touch [(s.blockOf (s.ctx cid)).task]) 6 0 (BitVec.ofNat 64 ((scalarOf (s.ctx cid) f false f.a).toNat % 2 ^ 52)) 0
  | .walking until_ => monAsk cid f until_ s
  | _ => monAsk cid f (s.now cid + 2 ^ 20) s
/-- mwait's return: the watch and the wake go, then the row acquires (R294). -/
def mwaitReturn (s : State) (cid : Nat) (f : Fields) (r : Nat) : Res :=
  .done ((((s.withdrawWatch cid).updCtx cid fun x => { x with wake := none }).writeS cid f (BitVec.ofNat 64 r)).acquireRow cid)
/-- mwait (R294). -/
def mwaitBody (cid : Nat) (f : Fields) (s : State) : Res :=
  let x := s.ctx cid
  let limit := (scalarOf x f false f.a).toNat
  let st := match x.stage with | .waitingSince c p => Stage.waitingSince c p | _ => .waitingSince (s.now cid) 0
  let gone := match x.stage with | .waitingSince c p => p + (s.now cid - c) | _ => 0
  match x.wake with
  | some r => mwaitReturn s cid f r
  | none =>
    if x.stage = .fresh ∧ x.watch = none then mwaitReturn s cid f 4
    else if limit ≠ 0 ∧ limit ≤ gone then mwaitReturn s cid f 1
    else .park s (.watch (if limit = 0 then none else some (s.now cid + (limit - gone)))) st

/-! ### Ranges (R297 to R299) -/
def allOnes64 : Word64 := 0xFFFFFFFFFFFFFFFF#64
/-- An rinit or rtake is answered: its row goes on. -/
def State.answerRow (s : State) (cid : Nat) (v : Word64) : State :=
  s.updCtx cid fun x => { x with stage := .answered v, parked := none }
/-- Serve a block's parked takers from its range, in arrival order (R298). -/
def serveTakers (s : State) (blk : Nat) : List Nat → State
  | [] => s
  | t :: ts => match s.block? blk with
    | none => s
    | some b => if b.lo < b.hi then
        serveTakers ((s.setBlock blk { b with lo := b.lo + 1, hasRange := decide (b.lo + 1 < b.hi), takers := ts }).answerRow t (BitVec.ofNat 64 b.lo)) blk ts
      else s
/-- Give [m, hi) of a range to a thief: its range, its takers (R298). -/
def State.giveRange (s : State) (thief lo hi : Nat) : State :=
  match s.block? thief with
  | none => s
  | some t => serveTakers (s.setBlock thief { t with lo := lo, hi := hi, hasRange := true, stealing := none }) thief t.takers
/-- Halve a victim's range (R298): where the part that is given begins. -/
def halve (lo hi : Nat) : Option Nat := if 2 ≤ hi - lo then some (lo + (hi - lo + 1) / 2) else none
/-- How far a block of the task lies after another in ring order of blkid (R298). -/
def State.ringDist (s : State) (b v : Block) : Nat :=
  let n := max 1 (s.taskOf b).total
  (v.blkid % n + n - b.blkid % n) % n
/-- The next block of the task with a non-empty range, further on in the ring than a distance (R298). -/
def State.nextVictim (s : State) (blk : Nat) (b : Block) (past : Nat) : Option (Nat × Block) :=
  (s.blocks.filter fun e => e.1 != blk && e.2.task == b.task && e.2.hasRange && e.2.phase != .retired && decide (past < s.ringDist b e.2)).foldl
    (fun acc e => match acc with | none => some e | some v => if s.ringDist b e.2 < s.ringDist b v.2 then some e else some v) none
/-- Go on with a steal past a distance of the ring (R298): the next block with a non-empty range is asked; a saved one is answered for at
once by the directory (R299); with none left, every taker gets all ones. -/
def State.askNext (s : State) (thief : Nat) (done : List Nat) : Nat → Nat → State
  | 0, _ => s
  | n + 1, past => match s.block? thief with
    | none => s
    | some t => match s.nextVictim thief t past with
      | none => t.takers.foldl (fun s c => s.answerRow c allOnes64) (s.setBlock thief { t with stealing := none, takers := [] })
      | some (v, b) =>
        if b.phase = .saved then
          match halve b.lo b.hi with
          | some m => (s.setBlock v { b with hi := m }).giveRange thief m b.hi
          | none => s.askNext thief (done ++ [v]) n (s.ringDist t b)
        else (s.setBlock v { b with asked := b.asked ++ [thief] }).updBlock thief fun t => { t with stealing := some (v, done) }
/-- A steal of a block begins (R298). -/
def State.steal (s : State) (thief : Nat) : State := s.askNext thief [] (s.blocks.length + 1) 0
/-- A victim's answer to a thief that is still waiting for it: half of its range, or nothing, and the next block is asked. -/
def State.answerThief (s : State) (blk thief : Nat) : State :=
  match s.block? blk, s.block? thief with
  | some b, some t =>
    (match t.stealing with
    | none => s
    | some (v, done) =>
      if v ≠ blk then s
      else match halve b.lo b.hi with
        | some m => (s.setBlock blk { b with hi := m }).giveRange thief m b.hi
        | none => s.askNext thief (done ++ [blk]) (s.blocks.length + 1) (s.ringDist t b))
  | _, _ => s
/-- Answer the thieves that have asked a block, one after another (R298). -/
def State.answerThieves (s : State) (blk : Nat) : State :=
  match s.block? blk with
  | none => s
  | some b => b.asked.foldl (fun s t => s.answerThief blk t) (s.setBlock blk { b with asked := [] })
/-- A block's range after a take or an rinit: the thieves of an empty one are answered (R298). -/
def State.setRange (s : State) (blk : Nat) (b : Block) (lo hi : Nat) : State :=
  let s1 := s.setBlock blk { b with lo := lo, hi := hi, hasRange := decide (lo < hi) }
  if lo < hi then s1 else s1.answerThieves blk
/-- A request that has reached its block's range (R298): an rinit waits while a steal of its block is outstanding, from the park that starts
it on; an rtake answers the
thieves first, and parks when the range is empty. -/
def State.serveRange (s : State) (blk : Nat) (r : RangeReq) : State :=
  let gone (s : State) : State := s.updBlock blk fun b => { b with requests := b.requests.erase r }
  match r.init with
  | some (lo, hi) => (match s.block? blk with
    | none => s
    | some b => if b.stealing.isSome || !b.takers.isEmpty then s else ((gone s).setRange blk { b with requests := b.requests.erase r, rinit := true } lo hi).answerRow r.cid 0)
  | none =>
    let s1 := (gone s).answerThieves blk
    match s1.block? blk with
    | none => s1
    | some b =>
      if b.lo < b.hi then (s1.setRange blk b (b.lo + 1) b.hi).answerRow r.cid (BitVec.ofNat 64 b.lo)
      else (s1.setBlock blk { b with takers := b.takers ++ [r.cid] }).park r.cid .range
/-- A block's range is kept on grid g: its first row's (R297). -/
def Block.rangeOn (b : Block) (g : Nat) : Bool := match b.rows.head? with | some c => gridOf c == g | none => false
/-- The requests that reached ranges kept on grid g in the cycles before this one, those of one cycle in order of block-wide row index
(R297). -/
def State.serveRanges (s : State) (g : Nat) : State :=
  let now := (s.grid g).clk
  s.blocks.foldl (fun (s : State) e =>
    if e.2.rangeOn g then
      (sortBy (fun (a b : RangeReq) => decide (a.due < b.due) || (a.due == b.due && decide (a.k ≤ b.k))) (e.2.requests.filter fun r => decide (r.due < now))).foldl
        (fun s r => s.serveRange e.1 r) s
    else s) s
/-- The cycles that a row's request takes to its block's range: none on the grid that keeps it (R297). -/
def State.rangeHops (s : State) (cid : Nat) : Nat :=
  match (s.blockOf (s.ctx cid)).rows.head? with
  | some c => if gridOf c = gridOf cid then 0 else (handoff cid c).1
  | none => 0
/-- The grid that keeps the range of a context's block. -/
def State.rangeHome (s : State) (cid : Nat) : Nat := match (s.blockOf (s.ctx cid)).rows.head? with | some c => gridOf c | none => gridOf cid
/-- rinit and rtake: the request goes to the range's home, where it is served; with its answer the instruction ends (R297, R298). -/
def rangeBody (init : Option (Nat × Nat)) (cid : Nat) (finish : Word64 → Nat → State) (s : State) : Res :=
  let x := s.ctx cid
  let b := s.blockOf x
  let ask : Res := .hold (s.updBlock x.blk fun b => { b with requests := b.requests ++ [{ due := s.clkFrom (gridOf cid) (s.rangeHome cid) + s.rangeHops cid, k := x.k, cid := cid, init := init }] })
    (.asked (s.now cid))
  match x.stage with
  | .answered v => .done (finish v (4 + s.rangeHops cid))
  | .asked c => if b.requests.any fun r => r.cid == cid then .stay (.asked c) else if b.takers.contains cid then .park s .range (.asked c) else ask
  | _ => ask
/-- rinit (R298). -/
def rinitBody (cid : Nat) (f : Fields) (s : State) : Res :=
  let x := s.ctx cid
  rangeBody (some ((scalarOf x f false f.a).toNat % 2 ^ 63, (scalarOf x f false f.b).toNat % 2 ^ 63)) cid
    (fun _ lat => s.updCtx cid fun x => { x with notBefore := max x.notBefore (s.now cid + lat - 1) }) s
/-- rtake (R298). -/
def rtakeBody (cid : Nat) (f : Fields) (s : State) : Res := rangeBody none cid (fun v lat => s.launchS cid f (lat - 1) v) s

/-! ### The meanings -/
-- BEGIN MEANINGS
/-- FNEW (R287). -/
def execFnew (f : Fields) (s : State) : Out := issue (.fnew f) 0xD0 f (fnewBody) s
/-- FSET (R288). -/
def execFset (f : Fields) (s : State) : Out := issue (.fset f) 0xD1 f (fsetBody) s
/-- FGET (R287). -/
def execFget (f : Fields) (s : State) : Out := issue (.fget f) 0xD2 f (fgetBody) s
/-- FWAIT (R287). -/
def execFwait (f : Fields) (s : State) : Out := issue (.fwait f) 0xD3 f (fwaitBody) s
/-- FTEST (R287). -/
def execFtest (f : Fields) (s : State) : Out := issue (.ftest f) 0xD4 f (ftestBody) s
/-- FMOV (R287). -/
def execFmov (f : Fields) (s : State) : Out := issue (.fmov f) 0xD5 f (fmovBody) s
/-- FCANCEL (R289). -/
def execFcancel (f : Fields) (s : State) : Out := issue (.fcancel f) 0xD6 f (fcancelBody) s
/-- BAR (R291). -/
def execBar (f : Fields) (s : State) : Out := issue (.bar f) 0xD7 f (barBody) s
/-- ARRIVE (R291). -/
def execArrive (f : Fields) (s : State) : Out := issue (.arrive f) 0xD8 f (arriveBody) s
/-- AWAIT (R291). -/
def execAwaitBar (f : Fields) (s : State) : Out := issue (.awaitBar f) 0xD9 f (awaitBody) s
/-- MON (R293). -/
def execMon (f : Fields) (s : State) : Out := issue (.mon f) 0xDA f (monBody) s
/-- MWAIT (R294). -/
def execMwait (f : Fields) (s : State) : Out := issue (.mwait f) 0xDB f (mwaitBody) s
/-- RINIT (R298). -/
def execRinit (f : Fields) (s : State) : Out := issue (.rinit f) 0xDC f (rinitBody) s
/-- RTAKE (R298). -/
def execRtake (f : Fields) (s : State) : Out := issue (.rtake f) 0xDD f (rtakeBody) s
-- END MEANINGS
end Sys2Proof.Machine
end

