-- ==== Sys2Proof/Machine/Matrix.lean ====
section
/-! DEFINITION. The matrix loop and its steps, the accumulators, handing on the Baton (R262 to R276): the meanings of opcodes
0xC0 to 0xC5 and of LOOP_STEP, LOOP_SHED, LOOP_COMPLETE and LINK_HANDOFF. -/
namespace Sys2Proof.Machine

/-- A slot's byte key (R142). -/
def slotKey (g slot : Nat) : Nat := 17408 * (32 * g + slot)
/-- n bytes of a slot's element area, and of its strip. -/
def State.slotBytes (s : State) (g slot off n : Nat) : List Byte := s.slotMem.readN (slotKey g slot + off) n
def State.stripBytes (s : State) (g slot off n : Nat) : List Byte := s.slotMem.readN (slotKey g slot + 16384 + off) n
def State.setTile (s : State) (g n : Nat) (t : Tile) : State := s.updGrid g fun x => { x with tiles := Tables.set n t x.tiles }
/-- A slot goes empty: its generation advances when it was not (R242). -/
def State.emptySlot (s : State) (g n : Nat) : State :=
  let t := s.tile g n
  if t.state = 0 then s else s.setTile g n { t with state := 0, gen := (t.gen + 1) % 65536 }

/-- Write a handle to a scalar register, marked pending (R228, R281). -/
def State.writeHandle (s : State) (cid : Nat) (d : Operand) (h : Word32) : State :=
  match d with
  | .s n => s.updCtx cid fun x =>
      let y := x.setS n.val (h.setWidth 64)
      { y with marks := Tables.set n.val (.pending h) y.marks }
  | _ => s
/-- Allocate an engine future for the context's block (R279). -/
def State.engineFuture (s : State) (cid : Nat) : Option (State × Word32) :=
  s.allocFuture (clusterOf (gridOf cid)) 1 (some (s.ctx cid).blk) (s.blockOf (s.ctx cid)).reserve

/-- mloop (R266, R267): the loop enters the dot sequencer. -/
def mloopBody (op cid : Nat) (f : Fields) (s : State) : Res :=
  let x := s.ctx cid
  let w := scalarOf x f false f.a
  let first := byteOf f.d % 16 + bitsOf w 7 4
  let groups := bitsOf w 19 16 + 1
  let price := priceOf s cid op f
  let (s1, h) := if f.b = .zero then (s, none) else match s.engineFuture cid with
    | some (t, h) => (t.writeHandle cid f.b h, some h)
    | none => (s, none)
  .done (s1.updCtx cid fun x =>
    let y := if w.getLsbD 1 then (List.range groups).foldl (fun y n => y.setAcc (first + n) Lanes.zero 0xFFFFFFFF#32) x else x
    { y with loop := some { fmt := f.mod, word := w, first := first, groups := groups, ksteps := bitsOf w 31 20
                            top := w.getLsbD 2 || x.rowid == 0, issued := s.now cid, price := price, held := price, fut := h } })
/-- mstep (R271): one step of the loop, into a[D] itself. -/
def mstepBody (op cid : Nat) (f : Fields) (s : State) : Res :=
  let x := s.ctx cid
  let w := scalarOf x f false f.a
  let price := priceOf s cid op f
  .done (s.updCtx cid fun x =>
    let y := if w.getLsbD 1 then x.setAcc (byteOf f.d % 16) Lanes.zero 0xFFFFFFFF#32 else x
    { y with loop := some { fmt := f.mod, word := w, first := byteOf f.d % 16, groups := 1, ksteps := 1, grp := bitsOf w 19 16
                            top := w.getLsbD 2 || x.rowid == 0, issued := s.now cid, price := price, held := price } })

/-- A chunk: 32 data bytes and its scale bytes. -/
structure Chunk where
  data : List Byte
  scales : List Byte
/-- AChunk(o) of R267. -/
def aChunk (s : State) (g slot o : Nat) (t : Ty) : Chunk :=
  let line := 32 * field o 9 5
  { data := s.slotBytes g slot o 32
    scales := match t with
      | .t8 => s.stripBytes g slot (line + field o 5 4) 1
      | .t4 => s.stripBytes g slot (line + field o 4 5) 2
      | _ => [] }
/-- ColumnChunk(bs, c) of R267. -/
def columnChunk (s : State) (g slot c : Nat) (t : Ty) : Chunk :=
  { data := s.slotBytes g slot (32 * c) 32
    scales := match t with
      | .t8 => s.stripBytes g slot c 1
      | .t4 => s.stripBytes g slot (2 * c) 2
      | _ => [] }
/-- A chunk as a port cell, the first scale in tag bits [7:0] (R267), the bits without a scale 0 (log entry 102); and back. -/
def Chunk.cell (c : Chunk) : Cell := ⟨c.data, leNat c.scales⟩
def chunkOf (c : Cell) (t : Ty) : Chunk :=
  { data := c.data, scales := match t with | .t8 => leBytes 1 c.tag | .t4 => leBytes 2 c.tag | _ => [] }
/-- The A offset of step k (R267). -/
def aOffset (cid : Nat) (l : Loop) : Nat :=
  (bitsOf l.word 45 32 + 32 * bitsOf l.word 15 8 * l.k + 512 * physOf cid) % 16384
/-- The B slot of step k (R267). -/
def bSlot (l : Loop) : Nat := (bitsOf l.word 63 56 + l.k % (bitsOf l.word 55 51 + 1)) % 32
/-- The slots with a release, of any loop's read, that no other loop in flight still has to wait for go empty (R268). -/
def State.releaseSlots (s : State) (g : Nat) : State :=
  let ready := (((s.grid g).autoRel.filter fun n => !s.pinnedBut g n.1 (some n.2)).map (·.1)).eraseDups
  if ready.isEmpty then s
  else ready.foldl (fun s n => s.emptySlot g n) (s.updGrid g fun x => { x with autoRel := x.autoRel.filter fun n => !ready.contains n.1 })

/-- Whether a step's own waits are over: the B slot, the pop, the push (R268). -/
def stepInputs (s : State) (cid : Nat) (l : Loop) : Bool :=
  let g := gridOf cid
  (if l.top then (s.tileSeen g (bSlot l)).state == 2 else (s.popReady cid).isSome) && (l.word.getLsbD 2 || s.pushReady cid)
/-- Whether the dot unit may start a step now: after the issue cycle, one in a cycle, at the cadence at the top (R268), and a loop's first not in
the cycle in which a loop of the row completes (R269). -/
def stepTime (s : State) (cid : Nat) (l : Loop) : Bool :=
  let now := s.now cid
  let r := s.prow (rowOf cid)
  decide (l.issued < now) && (l.k != 0 || l.n != 0 || (match r.lastDone with | some t => decide (t < now) | none => true)) && (match r.lastStep with
    | some t => decide (t < now) && (!l.top || decide (t + (s.grid (gridOf cid)).mcad ≤ now))
    | none => true)
/-- A loop of a block that is being saved stops before its next step: its buckets go back and the Baton passes at once (R112, R338 step 3). -/
def State.haltLoop (s : State) (cid : Nat) (l : Loop) : State :=
  if l.halted then s
  else
    let s0 := (s.returnBuckets (gridOf cid) l.held).updGrid (gridOf cid) fun g => { g with topups := g.topups.filter fun e => e.1 != cid }
    let s1 := s0.updCtx cid fun x => { x with loop := some { l with halted := true, held := 0, request := none } }
    if (s1.prow (rowOf cid)).baton = some (planeOf cid) then s1.passBaton (rowOf cid) false else s1
/-- A stopped loop whose block aborts instead of being saved completes (R329): it asks for its price as a shed one does. -/
def Loop.unhalted (l : Loop) (clk : Nat) : Loop :=
  if l.halted then { l with halted := false, shed := true, request := some { price := l.price, cycle := clk } } else l
/-- A shed loop steps again when it has its price and the Baton (R117). -/
def resume (s : State) (cid : Nat) (l : Loop) : State × Loop :=
  if l.shed && decide (l.price ≤ l.held) && (s.prow (rowOf cid)).baton == some (planeOf cid) then
    let l2 := { l with shed := false, waited := 0 }
    (s.updCtx cid fun x => { x with loop := some l2 }, l2)
  else (s, l)
/-- The step itself (R267): the chunks, the accumulate, the push, the move to the next step, the auto-release, which never takes the A slot
(R268). -/
def stepNow (s : State) (cid : Nat) (l : Loop) : State :=
  let g := gridOf cid
  let x := s.ctx cid
  let a := aChunk s g (bitsOf l.word 50 46) (aOffset cid l) l.fmt
  let popped := (s.popReady cid).getD []
  let col (j : Nat) : Chunk := if l.top then columnChunk s g (bSlot l) (j + 32 * (l.grp + l.n)) l.fmt else chunkOf (cellAt popped j) l.fmt
  let acc := x.accum (l.first + l.n)
  let new : Lanes := tab 32 fun j => dotStep l.fmt (acc.get j) a.data (col j).data a.scales (col j).scales
  let cells : Tbl Cell := (List.range 32).map fun j => (j, if l.top then (col j).cell else cellAt popped j)
  let now := s.now cid
  let lastN := decide (l.groups ≤ l.n + 1)
  let k2 := if lastN then l.k + 1 else l.k
  let l2 : Loop := { l with n := if lastN then 0 else l.n + 1, k := k2, lastStart := some now, waited := 0
                            doneAt := if l.ksteps ≤ k2 then some (now + 4) else none }
  let s1 := if l.top then s else s.popTake cid
  let s2 := s1.updCtx cid fun y => { y.setAcc (l.first + l.n) new 0xFFFFFFFF#32 with loop := some l2 }
  let s3 := if l.word.getLsbD 2 then s2 else s2.pushCells cid cells
  let s4 := s3.updRow (rowOf cid) fun r => { r with lastStep := some now }
  let s5 := if l.top then s4.updGrid g fun x => if x.topups.isEmpty then { x with mcad := x.mcadNext.getD x.mcad, mcadNext := none } else x else s4
  let s6 := if l.top && l.word.getLsbD 3 && lastN && bSlot l != bitsOf l.word 50 46 then s5.updGrid g fun x => { x with autoRel := x.autoRel.filter (· != (bSlot l, cid, l.issued)) ++ [(bSlot l, cid, l.issued)] } else s5
  s6.releaseSlots g
/-- LOOP_STEP (R268): the loop's next step starts, or it waits; a cycle counts towards shedding where its pop, its push or its B slot alone bars the
step, and not one in which the dot unit or the cadence bars it too (R117); in a save it stops (R338). -/
def execLoopStep (cid : Nat) (s : State) : Out :=
  .next (match s.ctx? cid with
    | none => s
    | some x => match x.loop with
      | none => s
      | some l0 =>
        if (s.blockOf x).phase == .stopping false && l0.doneAt.isNone then s.haltLoop cid l0
        else
        let l1 := l0.unhalted (s.cdie (dieOf (gridOf cid))).clk
        let (s1, l) := resume (if l0.halted then s.updCtx cid fun y => { y with loop := some l1 } else s) cid l1
        if l.shed || l.doneAt.isSome then s1
        else if !stepTime s1 cid l then s1.updCtx cid fun y => { y with loop := some { l with waited := 0 } }
        else if !stepInputs s1 cid l then s1.updCtx cid fun y => { y with loop := some { l with waited := l.waited + 1 } }
        else stepNow s1 cid l)
/-- LOOP_SHED (R117): after 48 cycles of waiting the buckets go back, the Baton is lent, and the loop asks for both. -/
def execLoopShed (cid : Nat) (s : State) : Out :=
  .next (match s.ctx? cid with
    | none => s
    | some x => match x.loop with
      | none => s
      | some l =>
        if l.shed || l.halted || decide (l.waited < 48) then s
        else
          let clk := (s.cdie (dieOf (gridOf cid))).clk
          let s0 := (s.returnBuckets (gridOf cid) l.held).updGrid (gridOf cid) fun g => { g with topups := g.topups.filter fun e => e.1 != cid }
          let s1 := s0.setCtx cid { x with loop := some { l with shed := true, held := 0, request := some { price := l.price, cycle := clk } } }
          if (s1.prow (rowOf cid)).baton = some (planeOf cid) then s1.passBaton (rowOf cid) true else s1)
/-- LOOP_COMPLETE (R269): the last accumulate has landed. -/
def execLoopComplete (cid : Nat) (s : State) : Out :=
  .next (match s.ctx? cid with
    | none => s
    | some x => match x.loop with
      | none => s
      | some l => match l.doneAt with
        | none => s
        | some t =>
          if s.now cid < t then s
          else
            let s0 := (s.returnBuckets (gridOf cid) l.held).updGrid (gridOf cid) fun g => { g with topups := g.topups.filter fun e => e.1 != cid }
            let s1 := (s0.setCtx cid { x with loop := none }).updRow (rowOf cid) fun r => { r with lastDone := some (s.now cid) }
            let s2 := match l.fut with | some h => s1.settle h 2 0 0 | none => s1
            let s3 := if (s2.prow (rowOf cid)).baton = some (planeOf cid) then s2.passBaton (rowOf cid) true else s2
            s3.releaseSlots (gridOf cid))
/-- LINK_HANDOFF (R260): the last row of a band on one grid empties its register into the edge link when it has room. -/
def execLinkHandoff (cid : Nat) (s : State) : Out :=
  .next (match s.ctx? cid with
    | none => s
    | some x =>
      match (s.blockOf x).rows[x.k + 1]? with
      | none => s
      | some below =>
        if s.bottom x || gridOf below == gridOf cid || !x.port.full then s
        else
          let (lat, cap) := handoff cid below
          if x.port.link.length < cap then
            s.setCtx cid { x with port := { x.port with full := false, link := x.port.link ++ [(x.port.pushed + lat, x.port.cells)] } }
          else s)

/-- azero (R273). -/
def azeroBody (cid : Nat) (f : Fields) (s : State) : Res :=
  let n := f.fn.toNat % 16 + 1
  .done (s.updCtx cid fun x => (List.range n).foldl (fun y i => y.setAcc (byteOf f.d + i) Lanes.zero (x.active f)) x)
/-- amov (R274): index i lands after 2 + i cycles, the bucket returns with the last. -/
def amovBody (op cid : Nat) (f : Fields) (s : State) : Res :=
  let x := s.ctx cid
  let mask := x.active f
  let n := f.fn.toNat % 16 + 1
  let a := match f.a with | .v k => k.val | _ => 0
  .done ((List.range n).foldl (fun (s : State) i =>
    let w := if f.fn.getLsbD 4 then RegWrite.acc (byteOf f.d + i) (x.vreg (a + i)) mask else RegWrite.v (a + i) (x.accum (byteOf f.d + i)) mask
    s.launch cid (2 + i) [w] 0 (if i + 1 = n then priceOf s cid op f else 0)) s)
/-- ast (R275). -/
def astBody (op cid : Nat) (f : Fields) (s : State) : Res :=
  let x := s.ctx cid
  let mask := x.active f
  let n := f.fn.toNat % 16 + 1
  let es := tyWidth f.mod / 8
  let addr (i l : Nat) : Word64 := scalarOf x f true f.a + scalarOf x f true f.c + BitVec.ofNat 64 i * scalarOf x f true f.b + BitVec.ofNat 64 (l * es)
  let as : List Access := (List.range n).flatMap fun i => (lanesOf mask).map fun l => ⟨l, addr i l⟩
  match checkAccesses s cid es es false as with
  | .error e => trapRes e
  | .ok ps =>
    if bankWait s cid es ps then .stay .fresh
    else
      let val (i l : Nat) : Nat × Flags :=
        let v := ((x.accum (byteOf f.d + i)).get l).toNat
        if f.mod = .f32 then (v, 0) else convert f.mod .f32 0 (f.fn.getLsbD 4) v
      let per := (lanesOf mask).length
      let s1 := (List.range n).foldl (fun (s : State) i =>
        s.queueStore cid (1 + i) (((ps.drop (i * per)).take per).flatMap fun p => placeBytes p (leBytes es (val i p.lane).1))) (s.checked cid)
      let fl := (List.range n).foldl (fun fl i => (lanesOf mask).foldl (fun fl l => fl ||| (val i l).2) fl) 0
      .done (s1.launch cid (1 + n) [] fl (priceOf s cid op f) false (f.mod != .f32))
/-- bpass (R276): no effect without the Baton. -/
def bpassBody (cid : Nat) (f : Fields) (s : State) : Res :=
  let v := scalarOf (s.ctx cid) f false f.a
  if (s.prow (rowOf cid)).baton ≠ some (planeOf cid) then .done s
  else
    let s1 := s.updCtx cid fun x => { x with bpassTo := if v.getLsbD 2 then none else some (v.toNat % 4) }
    .done (if (s.ctx cid).loop.isNone then s1.passBaton (rowOf cid) true else s1)

/-! ### The meanings -/
-- BEGIN MEANINGS
/-- MLOOP (R266). -/
def execMloop (f : Fields) (s : State) : Out := issue (.mloop f) 0xC0 f (mloopBody 0xC0) s
/-- MSTEP (R271). -/
def execMstep (f : Fields) (s : State) : Out := issue (.mstep f) 0xC1 f (mstepBody 0xC1) s
/-- AZERO (R273). -/
def execAzero (f : Fields) (s : State) : Out := issue (.azero f) 0xC2 f (azeroBody) s
/-- AMOV (R274). -/
def execAmov (f : Fields) (s : State) : Out := issue (.amov f) 0xC3 f (amovBody 0xC3) s
/-- AST (R275). -/
def execAst (f : Fields) (s : State) : Out := issue (.ast f) 0xC4 f (astBody 0xC4) s
/-- BPASS (R276). -/
def execBpass (f : Fields) (s : State) : Out := issue (.bpass f) 0xC5 f (bpassBody) s
-- END MEANINGS
end Sys2Proof.Machine
end

