-- ==== Sys2Proof/Machine/Leat.lean ====
section
/-! DEFINITION. The Leat (R227 to R247): copy shapes and their checks, operations and their beats, operand slots, global
atomics: the meanings of opcodes 0xB0 to 0xB8 and of LEAT_BEAT_ISSUE, LEAT_BEAT_COMPLETE, REQUEST_TIMEOUT and
PAGE_WALK_COMPLETE. -/
namespace Sys2Proof.Machine

/-! ### Units -/
/-- Unit size of a format (R230); the raw format is i8. -/
def unitSize : Ty → Nat
  | .t8 => 33 | .t6 => 25 | .t4 => 17 | .bf16 | .f16 => 2 | _ => 1
/-- Positions of a slot, Rows × U (R239). -/
def slotUnits (t : Ty) : Nat := match t with | .t8 | .t6 => 512 | .t4 => 1024 | _ => 8192
/-- The format code of a tile entry (R246), and back. -/
def tileFmt : Ty → Nat
  | .t8 => 1 | .t6 => 2 | .t4 => 3 | .bf16 => 4 | .f16 => 5 | _ => 0
def fmtTy : Nat → Ty
  | 1 => .t8 | 2 => .t6 | 3 => .t4 | 4 => .bf16 | _ => .f16
/-- Where unit t of a format lies in the slot (R142, R143, R239): element area offset, strip byte. -/
def unitPlace (f : Ty) (layB : Bool) (t : Nat) : Nat × Nat :=
  match f, layB with
  | .t8, false | .t6, false => (512 * (t / 16) + 32 * (t % 16), 32 * (t / 16) + t % 16)
  | .t4, false => (512 * (t / 32) + 16 * (t % 32), 32 * (t / 32) + t % 32)
  | .t8, true | .t6, true => (32 * t, t)
  | .t4, true => (32 * (t / 2) + 16 * (t % 2), 2 * (t / 2) + t % 2)
  | _, false => (512 * (t / 256) + 2 * (t % 256), 0)
  | _, true => (32 * (t % 512) + 2 * (t / 512), 0)
/-- Elements 6i to 6i + 5 of a T6 record's 24 bytes, and back (R140). -/
def sixes (bs : List Byte) : List Nat := (List.range 32).map fun i => leNat bs >>> (6 * i) % 64
def packSixes (cs : List Nat) : List Byte := leBytes 24 ((List.range 32).foldl (fun acc i => acc + (cs.getD i 0 % 64) * 2 ^ (6 * i)) 0)
/-- A unit's element bytes as the slot holds them (R142): T6 widened to T8 codes. -/
def slotElems (f : Ty) (bs : List Byte) : List Byte :=
  match f with
  | .t8 | .t4 => bs.drop 1
  | .t6 => (sixes (bs.drop 1)).map fun c => BitVec.ofNat 8 (convert .t8 .t6 0 false c).1
  | _ => bs
/-- A unit read out of a slot (R241): its scale and its elements, T6 narrowed. -/
def slotUnit (s : State) (g slot : Nat) (f : Ty) (layB : Bool) (t : Nat) : List Byte :=
  let p := unitPlace f layB t
  match f with
  | .t8 => s.stripBytes g slot p.2 1 ++ s.slotBytes g slot p.1 32
  | .t6 => s.stripBytes g slot p.2 1 ++ packSixes ((s.slotBytes g slot p.1 32).map fun b => (convert .t6 .t8 0 false b.toNat).1)
  | .t4 => s.stripBytes g slot p.2 1 ++ s.slotBytes g slot p.1 16
  | _ => s.slotBytes g slot p.1 2
/-- Place a unit into a slot (R239). -/
def placeUnit (g slot : Nat) (f : Ty) (layB : Bool) (m : Mem) (t : Nat) (bs : List Byte) : Mem :=
  let p := unitPlace f layB t
  let m1 := m.writeN (slotKey g slot + p.1) (slotElems f bs)
  if unitSize f = 2 then m1 else m1.writeN (slotKey g slot + 16384 + p.2) (bs.take 1)

/-! ### Enumeration -/
/-- Units of an operation (R230). -/
def LeatOp.total (o : LeatOp) : Nat := o.e0 * o.n1 * o.n2
def LeatOp.us (o : LeatOp) : Nat := match o.kind with | .atomic _ _ _ _ => tyWidth o.ty / 8 | _ => unitSize o.ty
/-- (j2, j1, i) of unit t. -/
def LeatOp.coords (o : LeatOp) (t : Nat) : Nat × Nat × Nat := (t / (o.e0 * o.n1), t / o.e0 % o.n1, t % o.e0)
/-- G(t) of R230; gathers and scatters scale their index (R237, R238). -/
def LeatOp.gAddr (o : LeatOp) (t : Nat) : Nat :=
  let c := o.coords t
  let j1 : Int := match o.indices with | some l => (l.getD c.2.1 0 : Nat) | none => c.2.1
  wrap 52 ((o.gva : Int) + j1 * o.gs1 + c.1 * o.gs2 + ((c.2.2 * o.us : Nat) : Int))
/-- L(t) of R230. -/
def LeatOp.lAddr (o : LeatOp) (t : Nat) : Word64 :=
  let c := o.coords t
  word64 ((o.lva : Int) + (c.2.1 : Int) * o.ls1 + (c.1 : Int) * o.ls2 + ((c.2.2 * o.us : Nat) : Int))
def LeatOp.needsList (o : LeatOp) : Bool := match o.kind with | .gather | .scatter => true | .fill _ _ idx => idx | _ => false
/-- The operation writes global memory. -/
def LeatOp.writesGlobal (o : LeatOp) : Bool := match o.kind with | .cpySt | .scatter | .drain _ _ | .atomic _ _ _ _ => true | _ => false
/-- A global atomic (R247). -/
def LeatOp.isAtomic (o : LeatOp) : Bool := match o.kind with | .atomic _ _ _ _ => true | _ => false
/-- Every beat has gone out, or none will any more (R232). -/
def LeatOp.sent (o : LeatOp) : Bool := o.failure.isSome || (o.started && decide (o.total ≤ o.at_.1))
/-- The next beat's runs from a place of the enumeration: consecutive runs of one line. -/
def LeatOp.runsAt (o : LeatOp) : Nat → Nat → Nat → Option Nat → List Run × (Nat × Nat)
  | 0, t, off, _ => ([], (t, off))
  | k + 1, t, off, line =>
    if o.total ≤ t then ([], (t, off))
    else
      let va := o.gAddr t + off
      if line.isSome && line != some (va / 64) then ([], (t, off))
      else
        let len := min (o.us - off) (64 - va % 64)
        let nxt := if off + len < o.us then (t, off + len) else (t + 1, 0)
        let r := o.runsAt k nxt.1 nxt.2 (some (va / 64))
        ({ t := t, off := off, va := va, len := len } :: r.1, r.2)

/-! ### Shape checks at issue (R231) -/
/-- Register k of the shape block. -/
def shapeReg (x : Ctx) (f : Fields) (k : Nat) : Word64 := match f.a with | .s n => x.sreg (n.val + k) | _ => 0
/-- The operation that a copy's shape describes. -/
def shapeOp (s : State) (cid : Nat) (f : Fields) (kind : LeatKind) : LeatOp :=
  let x := s.ctx cid
  let r := shapeReg x f
  { id := 0, cid := cid, blk := x.blk, kind := kind, ty := f.mod, layB := f.fn.getLsbD 0
    gva := bitsOf (r 0) 51 0, lva := (r 1).toNat, e0 := bitsOf (r 2) 19 0, n1 := bitsOf (r 2) 39 20, n2 := bitsOf (r 2) 59 40
    gs1 := signed 32 (bitsOf (r 3) 31 0), gs2 := signed 32 (bitsOf (r 3) 63 32)
    ls1 := signed 32 (bitsOf (r 4) 31 0), ls2 := signed 32 (bitsOf (r 4) 63 32)
    reg := bitsOf (r 5) 3 0, iw := (r 6).getLsbD 32, list := bitsOf (r 6) 31 0, fut := 0, buckets := 0, waitStores := x.stores.length
    shut := (s.blockOf x).closed }
/-- The first register that breaks a fixed field: of a shape whose local side is a slot, or that takes an index list. -/
def badField (x : Ctx) (f : Fields) (slot list : Bool) : Option Nat :=
  let r := shapeReg x f
  let bad : List Bool :=
    [bitsOf (r 0) 63 52 != 0, slot && r 1 != 0, bitsOf (r 2) 63 60 != 0 || (list && bitsOf (r 2) 59 40 != 1),
     list && bitsOf (r 3) 63 32 != 0, (slot && r 4 != 0) || (list && bitsOf (r 4) 63 32 != 0), bitsOf (r 5) 63 4 != 0,
     if list then bitsOf (r 6) 63 33 != 0 else r 6 != 0, r 7 != 0]
  bad.findIdx? id
/-- First address past the allocation that holds a local address (R198). -/
def allocEnd (s : State) (cid : Nat) (a : Nat) : Nat :=
  let b := s.blockOf (s.ctx cid)
  if a < 0x200000 then (b.spanOn (gridOf cid)).lim
  else if 0x1000000 ≤ a ∧ a < 0x1000000 + 24 * 0x200000 then
    let lg := (a - 0x1000000) / 0x200000
    let sp := b.spanOn (24 * clusterOf (gridOf cid) + (s.cluster (clusterOf (gridOf cid))).map.getD lg 0)
    0x1000000 + 0x200000 * lg + (sp.lim - sp.base)
  else b.scrlim
/-- Bytes lo to hi lie in one allocation, or the lowest byte outside (R231). -/
def footprint (s : State) (cid : Nat) (lo hi : Nat) : Option Word64 :=
  if (s.resolve cid (BitVec.ofNat 64 lo) 1).isNone then some (BitVec.ofNat 64 lo)
  else
    let e := allocEnd s cid lo
    if hi < e then none else some (BitVec.ofNat 64 e)
/-- The lowest and the highest local byte of a non-empty shape, were its addresses not to wrap. -/
def LeatOp.corners (o : LeatOp) : Int × Int :=
  let d1 : Int := ((o.n1 - 1 : Nat) : Int) * o.ls1
  let d2 : Int := ((o.n2 - 1 : Nat) : Int) * o.ls2
  ((o.lva : Int) + min 0 d1 + min 0 d2, (o.lva : Int) + max 0 d1 + max 0 d2 + ((o.e0 * o.us : Nat) : Int) - 1)
/-- The lowest L(t) of a run of e0 units from an address, modulo 2^64 (R230). -/
def LeatOp.runLow (o : LeatOp) (a : Int) : Nat :=
  let r := wrap 64 a
  if r + (o.e0 - 1) * o.us < 2 ^ 64 then r else min r (r + (2 ^ 64 - r + o.us - 1) / o.us * o.us - 2 ^ 64)
/-- The lowest L(t) of a shape whose addresses wrap modulo 2^64 (R230). -/
def LeatOp.wrappedLow (o : LeatOp) : Nat :=
  (List.range o.n2).foldl (fun (acc j2 : Nat) =>
    (List.range o.n1).foldl (fun (acc2 j1 : Nat) =>
      min acc2 (o.runLow ((o.lva : Int) + (j1 : Int) * o.ls1 + (j2 : Int) * o.ls2))) acc) (2 ^ 64 - 1)
/-- The local footprint check of R231. A shape that wraps reaches both ends of the address space, so it is judged on its lowest byte and
the end of the space. -/
def LeatOp.outside (o : LeatOp) (s : State) (cid : Nat) : Option Word64 :=
  let c := o.corners
  if 0 ≤ c.1 ∧ c.2 < (2 ^ 64 : Nat) then footprint s cid c.1.toNat c.2.toNat else footprint s cid o.wrappedLow (2 ^ 64 - 1)
def shapeMark (k : Nat) : Word64 := 0x8000000000000000 + BitVec.ofNat 64 k
/-- The checks of R231 in their order: the cause and trapaddr of the first that fails; what an index list reports is the model's choice (log
entry 112). -/
def shapeFault (s : State) (cid : Nat) (f : Fields) (o : LeatOp) (slot list : Bool) (cap : Nat) : Option (Nat × Word64) :=
  match badField (s.ctx cid) f slot list with
  | some k => some (4, shapeMark k)
  | none =>
    let es := if o.iw then 4 else 2
    let local_ := if slot || o.total == 0 then none else o.outside s cid
    match local_ with
    | some a => some (4, a)
    | none =>
      let lst : Option (Nat × Word64) :=
        if !list then none
        else match (if o.n1 = 0 then none else footprint s cid o.list (o.list + o.n1 * es - 1)) with
          | some a => some (4, a)
          | none => if o.list % es ≠ 0 then some (5, BitVec.ofNat 64 o.list) else none
      match lst with
      | some e => some e
      | none => if slot && decide (cap < o.total) then some (4, shapeMark 2) else none
/-- Accept an operation (R227, R228): a future, its handle in d, the bucket held until the last beat goes out. -/
def acceptOp (op cid : Nat) (f : Fields) (o : LeatOp) (s : State) : Res :=
  match s.engineFuture cid with
  | none => .stay .fresh
  | some (t, h) =>
    let g := gridOf cid
    let t1 := t.updGrid g fun x => { x with leat := x.leat ++ [{ o with id := x.nextOp, fut := h, buckets := priceOf s cid op f, word := BitVec.ofNat 64 (packFields op f) }], nextOp := x.nextOp + 1 }
    .done ((t1.writeHandle cid f.d h).checked cid)
/-- A copy without a slot: cpy, raw cpyg, cpys (R236 to R238). -/
def copyBody (op : Nat) (kind : LeatKind) (list : Bool) (cid : Nat) (f : Fields) (s : State) : Res :=
  let o := { shapeOp s cid f kind with ty := .i8, layB := false }
  match shapeFault s cid f o false list 0 with
  | some (c, a) => .trap c 0 a 0
  | none => acceptOp op cid f o s
/-- A copy into a slot: cpyt and cpyg with a format (R237, R240). -/
def fillBody (op : Nat) (list : Bool) (cid : Nat) (f : Fields) (s : State) : Res :=
  let slot := (scalarOf (s.ctx cid) f false f.b).toNat
  let g := gridOf cid
  let tl := s.tile g slot
  let o := shapeOp s cid f (.fill slot tl.gen list)
  match shapeFault s cid f o true list (slotUnits f.mod) with
  | some (c, a) => .trap c 0 a 0
  | none => acceptOp op cid f o (s.setTile g slot { tl with state := 1, fmt := tileFmt f.mod, layB := f.fn.getLsbD 0 })
/-- cpy (R236). -/
def cpyBody (op cid : Nat) (f : Fields) (s : State) : Res :=
  copyBody op (if f.fn.getLsbD 0 then .cpySt else .cpyLd) false cid f s
/-- cpyg (R237). -/
def cpygBody (op cid : Nat) (f : Fields) (s : State) : Res :=
  if f.mod = .i8 then copyBody op .gather true cid f s else fillBody op true cid f s
/-- cpys (R238). -/
def cpysBody (op cid : Nat) (f : Fields) (s : State) : Res := copyBody op .scatter true cid f s
/-- cpyt (R240). -/
def cpytBody (op cid : Nat) (f : Fields) (s : State) : Res := fillBody op false cid f s
/-- cpyd (R241). -/
def cpydBody (op cid : Nat) (f : Fields) (s : State) : Res :=
  let slot := (scalarOf (s.ctx cid) f false f.b).toNat
  let g := gridOf cid
  let tl := s.tile g slot
  let o := { shapeOp s cid f (.drain slot tl.gen) with ty := fmtTy tl.fmt, layB := tl.layB }
  match shapeFault s cid f o true false (slotUnits (fmtTy tl.fmt)) with
  | some (c, a) => .trap c 0 a 0
  | none => acceptOp op cid f o (s.setTile g slot { tl with state := 3 })
/-- gatom (R247); what its cause 0x05 reports is the model's choice (log entry 101). -/
def gatomBody (op cid : Nat) (f : Fields) (s : State) : Res :=
  let x := s.ctx cid
  let a := scalarOf x f false f.a
  let w := tyWidth f.mod / 8
  let aop := atomOpOf (f.fn.toNat % 8)
  if bitsOf a 59 52 ≠ 0 then .trap 4 0 a 0
  else if bitsOf a 51 0 % w ≠ 0 then .trap 5 0 (BitVec.ofNat 64 (bitsOf a 51 0)) 0
  else
    acceptOp op cid f { id := 0, cid := cid, blk := x.blk, kind := .atomic aop f.mod (scalarOf x f false f.b) (scalarOf x f false f.c)
                        ty := f.mod, layB := false, gva := bitsOf a 51 0, lva := 0, e0 := 1, n1 := 1, n2 := 1, gs1 := 0, gs2 := 0
                        ls1 := 0, ls2 := 0, reg := bitsOf a 63 60, iw := false, list := 0, fut := 0, buckets := 0
                        waitStores := x.stores.length } s

/-! ### Slots (R244 to R246) -/
/-- tclaim (R244): the lowest unowned entry changes owner, and its generation moves on. -/
def tclaimBody (cid : Nat) (f : Fields) (s : State) : Res :=
  let g := gridOf cid
  match (List.range 32).find? fun n => (s.tile g n).owner.isNone with
  | none => .done (s.writeS cid f allOnes64)
  | some n =>
    let t := s.tile g n
    .done ((s.setTile g n { t with state := 0, owner := some (s.ctx cid).blk, gen := (t.gen + 1) % 65536 }).writeS cid f (BitVec.ofNat 64 n))
/-- trel (R245). -/
def trelBody (cid : Nat) (f : Fields) (s : State) : Res :=
  .done (s.emptySlot (gridOf cid) (scalarOf (s.ctx cid) f false f.a).toNat)
/-- tstat (R246): the entry as it stood at the start of the cycle, when the cycle's moves have not taken effect (R243). -/
def tstatBody (cid : Nat) (f : Fields) (s : State) : Res :=
  let n := (scalarOf (s.ctx cid) f false f.a).toNat
  let t := s.tileSeen (gridOf cid) n
  let v := if 31 < n then 0
    else t.gen * 2 ^ 16 + ofBool t.layB * 128 + t.fmt * 16 + ofBool (t.owner == some (s.ctx cid).blk) * 8 + t.state
  .done (s.writeS cid f (BitVec.ofNat 64 v))

/-! ### Beats -/
/-- Change an operation of a grid's Leat. -/
def State.updOp (s : State) (g id : Nat) (f : LeatOp → LeatOp) : State :=
  s.updGrid g fun x => { x with leat := x.leat.map fun o => if o.id = id then f o else o }
/-- The value a failed operation settles with (R233). -/
def failValue (cause status va : Nat) : Word64 := BitVec.ofNat 64 (cause * 2 ^ 56 + status * 2 ^ 52 + va % 2 ^ 52)
/-- Record a failure; the failing unit that comes first stands (R232). -/
def LeatOp.fail (o : LeatOp) (t cause status va : Nat) : LeatOp :=
  match o.failure with
  | some (u, _) => if u ≤ t then o else { o with failure := some (t, failValue cause status va) }
  | none => { o with failure := some (t, failValue cause status va) }
/-- Place every unit that came into the slot, zeros elsewhere (R239, R240). -/
def State.placeAll (s : State) (g slot : Nat) (o : LeatOp) : State :=
  let m0 := s.slotMem.clear (slotKey g slot) 17408
  { s with slotMem := (List.range o.total).foldl (fun m t => placeUnit g slot o.ty o.layB m t (o.staged.readN (t * o.us) o.us)) m0 }
/-- An operation whose last beat has gone out returns its bucket, and a slot it drained is empty (R228, R241). -/
def State.opSent (s : State) (g : Nat) (o : LeatOp) : State :=
  let s1 := (s.returnBuckets g o.buckets).updOp g o.id fun p => { p with buckets := 0 }
  match o.kind with
  | .drain slot gen => if (s1.tile g slot).gen = gen ∧ (s1.tile g slot).state = 3 then s1.emptySlot g slot else s1
  | _ => s1
/-- An operation with nothing left to send or to come ends: its slot and its future settle in one cycle (R233, R240). -/
def State.opEnd (s : State) (g id : Nat) : State :=
  match (s.grid g).leat.find? fun o => o.id == id with
  | none => s
  | some o =>
    if !o.sent then s
    else
      let s1 := s.opSent g o
      if !o.beats.isEmpty then s1
      else
        let s2 := s1.updGrid g fun x => { x with leat := x.leat.filter fun p => p.id != id }
        let s3 := match o.kind with
          | .fill slot gen _ =>
            let t := s2.tile g slot
            if t.gen ≠ gen ∨ t.state ≠ 1 then s2
            else if o.failure.isSome then s2.emptySlot g slot
            else (s2.placeAll g slot o).setTile g slot { t with state := 2 }
          | _ => s2
        match o.failure with
        | some (_, v) => s3.settle o.fut 3 v (bitsOf v 63 56)
        | none => s3.settle o.fut 2 o.result 0
/-- Places of n local bytes from an address; a byte outside every allocation has none. -/
def localPlaces (s : State) (cid : Nat) (a : Word64) (n : Nat) : List (Space × Nat) :=
  (List.range n).filterMap fun i => s.resolve cid (a + BitVec.ofNat 64 i) 1
/-- A place lies in a bank that a context other than the operation's holds (R235). -/
def State.bankBusy (s : State) (cid : Nat) (ps : List (Space × Nat)) : Bool :=
  ps.any fun p => match p.1 with | .side g => s.bankHeld cid g (bankOf p.2) | .scratch _ => false
/-- The index list as it stands at home (R237). -/
def readList (s : State) (o : LeatOp) : List Nat :=
  let es := if o.iw then 4 else 2
  (List.range o.n1).map fun j =>
    leNat ((localPlaces s o.cid (BitVec.ofNat 64 (o.list + es * j)) es).flatMap fun p => s.readSpace p.1 p.2 1)
/-- The list's bytes lie in banks free to the operation. -/
def listFree (s : State) (o : LeatOp) : Bool :=
  !o.needsList || !s.bankBusy o.cid (localPlaces s o.cid (BitVec.ofNat 64 o.list) ((if o.iw then 4 else 2) * o.n1))

/-- An open region of the node covers the byte with the write mode (R315, R320). -/
def openWrite (b : Block) (shut : List Nat) (va : Nat) : Bool :=
  (List.range b.hdr.regions.length).any fun j =>
    let r := b.hdr.regions.getD j {}
    r.holds va && r.isWrite && !shut.contains j
/-- Step 1 of R232 for a run: the named record has the mode bit and holds every byte; where the block had closed it before the operation
was issued, another open region must cover a byte that is written (R315). -/
def runAllowed (b : Block) (shut : List Nat) (reg need : Nat) (r : Run) : Bool :=
  let rec_ := b.hdr.regions.getD reg {}
  decide (reg < b.hdr.nreg) && (match need with | 0 => rec_.isRead | 1 => rec_.isWrite | _ => rec_.isAtomic)
    && (List.range r.len).all fun i => rec_.holds (r.va + i) && (need != 1 || openWrite b shut (r.va + i))
/-- A byte of the runs' lines lies in an atomic-uncached region of the node, so that the line is never cached (R18, R217, R311). -/
def runsUncached (b : Block) (rs : List Run) : Bool :=
  rs.any fun r => b.hdr.regions.any fun q => q.isAtomic && decide (q.base < r.va / 64 * 64 + 64) && decide (r.va / 64 * 64 < q.base + q.extent)
/-- What a beat's translation gives: the kind, the line's target and whether it bypasses the die cache, or a status; none
while a page walk or a table rewrite holds it (R210, R212, R215, R247). -/
def beatTarget (s : State) (c : Nat) (b : Block) (o : LeatOp) (line : Nat) : Option (Except Nat (Nat × Nat × Bool)) :=
  match s.translate c b.fn (64 * line) with
  | .miss => none
  | .fail st => some (.error st)
  | .ok kind target r w atom =>
    let isAtom := match o.kind with | .atomic _ _ _ _ => true | _ => false
    if isAtom && (!atom || kind == 2) then some (.error 3)
    else if (if isAtom then !(r && w) else if o.writesGlobal then !w else !r) then some (.error 2)
    else if kind = 0 then
      (match s.homeOf target with
      | none => some (.error 4)
      | some _ => if s.heldPa target then none else some (.ok (kind, target, atom)))
    else some (.ok (kind, target, atom))
/-- The bytes a drain's runs carry, read from the slot (R241). -/
def drainData (s : State) (g slot : Nat) (o : LeatOp) (runs : List Run) : List (List Byte) :=
  runs.map fun r => ((slotUnit s g slot o.ty o.layB r.t).drop r.off).take r.len
/-- A line of a slot's storage that holds a unit is bad (R334): line 272 n + i of array 1 is the i-th of slot n. -/
def State.slotBad (s : State) (g slot : Nat) (o : LeatOp) (t : Nat) : Bool :=
  let p := unitPlace o.ty o.layB t
  (linesOf p.1 (unitSize o.ty)).any (fun k => s.sramBad g 1 (272 * slot + k)) || (unitSize o.ty != 2 && s.sramBad g 1 (272 * slot + 256 + p.2 / 64))
/-- Beats outstanding on a grid (R227). -/
def Grid.outstanding (x : Grid) : Nat := x.leat.foldl (fun n o => n + o.beats.length) 0
/-- The beat bypasses the die cache (R203, R217). -/
def Beat.uncached (s : State) (b : Beat) : Bool := b.atom || s.dsplit == 0
/-- The bytes that a cached beat touches are in the die cache. -/
def lineHit (s : State) (d fn : Nat) (b : Beat) : Bool :=
  match s.dline? d (dkey fn (64 * b.line)) with
  | some l => l.kind == b.kind && l.target == b.target && b.runs.all fun r => (List.range r.len).all fun i => l.valid.getLsbD ((r.va + i) % 64)
  | none => false
/-- The line that a read of a peer's or the host's memory finds in the die cache; its bytes there are the beat's, whatever becomes of the line. -/
def servedBy (s : State) (d fn : Nat) (b : Beat) : Option (List Byte) :=
  if b.kind = 0 ∨ b.uncached s ∨ !lineHit s d fn b then none else (s.dline? d (dkey fn (64 * b.line))).map (·.bytes)
/-- An access goes home past a die cache that holds forwarded bytes of its line: they go there first (R314). -/
def State.sendForwarded (s : State) (d fn line : Nat) : State :=
  match s.dline? d (dkey fn (64 * line)) with
  | some l => if l.tags.isEmpty then s else s.evictLine d (dkey fn (64 * line))
  | none => s
/-- Send an operation's next beat (R227, R232); a peer or the host is asked for a line that the die cache does not serve. -/
def sendBeat (s : State) (g : Nat) (o : LeatOp) : State :=
  let r := o.runsAt 64 o.at_.1 o.at_.2 none
  match r.1.head? with
  | none => s.opEnd g o.id
  | some r0 =>
    let b := s.blockOf (s.ctx o.cid)
    let line := r0.va / 64
    let need := match o.kind with | .atomic _ _ _ _ => 2 | _ => if o.writesGlobal then 1 else 0
    match r.1.find? fun x => !runAllowed b o.shut o.reg need x with
    | some x => (s.updOp g o.id fun p => p.fail x.t 7 0 x.va).opEnd g o.id
    | none =>
      if s.translate (clusterOf g) b.fn (64 * line) = .miss then s.startWalk (clusterOf g) b.fn (64 * line)
      else match beatTarget s (clusterOf g) b o line with
      | none => s
      | some (.error st) =>
        let s1 := (s.updOp g o.id fun p => p.fail r0.t 6 st r0.va).opEnd g o.id
        if st = 5 then s1.touch [b.task]
        else if st = 6 ∧ s.walkLost b.fn r0.va then (match s.block? o.blk with | some x => s1.failTask x.task 6 0 | none => s1) else s1
      | some (.ok (kind, target, atomic)) =>
        let atom := atomic || runsUncached b r.1
        let data := match o.kind with | .drain slot _ => drainData s g slot o r.1 | _ => []
        let bt : Beat := { id := o.nextBeat, line := line, runs := r.1, data := data, expires := (s.grid g).clk + 2 ^ 20, target := target, kind := kind
                           atom := atom, gen := s.itgen }
        let served := if o.writesGlobal then none else servedBy s (dieOf g) b.fn bt
        let s0 := if bt.uncached s then s.sendForwarded (dieOf g) b.fn line else s
        let s1 := s0.updOp g o.id fun p => { p with beats := p.beats ++ [{ bt with answer := served }], nextBeat := p.nextBeat + 1, at_ := r.2 }
        let s2 := if kind ≠ 0 ∧ !o.writesGlobal ∧ served.isNone then s1.emit (.memRequest kind target (.read 64)) else s1
        let s3 := match o.kind with | .atomic aop ty x e => if kind = 0 then s2 else s2.emit (.memRequest kind (target + r0.va % 64) (.atomic aop ty x e)) | _ => s2
        s3.opEnd g o.id
/-- Whether an operation can send or start now; a bank of its list held by another context defers it
(R235), and one of a block being stopped that has sent nothing goes no further (R337, R338). -/
def LeatOp.stuck (o : LeatOp) (s : State) : Bool :=
  (!o.started && o.waitStores == 0 && !listFree s o)
    || (o.nextBeat == 0 && (match s.block? o.blk with | some b => (match b.phase with | .stopping _ => true | _ => false) | none => false))
/-- The index list lies in bad storage: the operation fails with status 6 (R334, R237). -/
def State.listBad (s : State) (o : LeatOp) : Bool :=
  o.needsList && (localPlaces s o.cid (BitVec.ofNat 64 o.list) ((if o.iw then 4 else 2) * o.n1)).any fun p => s.lineBad (sramLine p.1 p.2)
/-- LEAT_BEAT_ISSUE (R227, R233): the first operation that still has beats to send starts, or sends the next. One whose index list lies in bad storage
fails with its own VA in the va field (log entry 112). -/
def execLeatBeatIssue (g : Nat) (s : State) : Out :=
  .next (match (s.grid g).leat.find? fun o => !o.sent && !o.stuck s with
    | none => s
    | some o =>
      if !o.started then
        if o.waitStores ≠ 0 then s
        else if s.listBad o then ((s.updOp g o.id fun p => { p.fail 0 6 6 p.gva with started := true }).opEnd g o.id)
        else (s.updOp g o.id fun p => { p with started := true, indices := if p.needsList then some (readList s p) else none }).opEnd g o.id
      else if 256 ≤ (s.grid g).outstanding then s
      else sendBeat s g o)

/-- Places of the local bytes of a beat's run. -/
def runPlaces (s : State) (o : LeatOp) (r : Run) : List (Space × Nat) := localPlaces s o.cid (o.lAddr r.t + BitVec.ofNat 64 r.off) r.len
/-- The operation has a local side that is no slot. -/
def LeatOp.hasLocal (o : LeatOp) : Bool := match o.kind with | .cpyLd | .cpySt | .gather | .scatter => true | _ => false
/-- Destination bytes of a beat as comparable pairs (R230). -/
def beatDest (s : State) (o : LeatOp) (b : Beat) : List (Nat × Nat) :=
  if o.writesGlobal then b.runs.flatMap fun r => (List.range r.len).map fun i => (0, r.va + i)
  else if o.hasLocal then b.runs.flatMap fun r => (runPlaces s o r).map fun p => match p.1 with
    | .side g => (1, 2 ^ 21 * g + p.2) | .scratch d => (2, 2 ^ 27 * d + p.2)
  else []
/-- An earlier beat of the operation writes one of the same bytes: the later one waits, so that the higher unit stands. -/
def overtakes (s : State) (o : LeatOp) (b : Beat) : Bool :=
  o.beats.any fun e => decide (e.id < b.id) && (beatDest s o e).any fun p => (beatDest s o b).contains p
/-- Drop a beat that is done, and end the operation if it was the last. -/
def State.beatDone (s : State) (g op id : Nat) : State :=
  (s.updOp g op fun p => { p with beats := p.beats.filter fun e => e.id != id }).opEnd g op
/-- A beat's operation fails with a status (R215, R232). -/
def State.beatFail (s : State) (g op : Nat) (b : Beat) (st : Nat) : State :=
  let r := b.runs.headD { t := 0, off := 0, va := 0, len := 0 }
  (s.updOp g op fun p => p.fail r.t 6 st r.va).beatDone g op b.id
/-- The 64 bytes of a read beat's line, once they can be had. -/
def beatLine (s : State) (g fn : Nat) (b : Beat) (reply : BeatReply) : Option (State × List Byte) :=
  let d := dieOf g
  let fill (bs : List Byte) : State × List Byte := if b.uncached s then (s, bs) else s.readCached d fn (64 * b.line) b.kind b.target bs
  match reply with
  | .data bs => if b.kind = 0 then none else some (fill bs)
  | _ => if b.kind = 0 then (s.readTarget 0 b.target 64).map fill else (servedBy s d fn b).map fun bs => (s, bs)
/-- Deliver a read beat's bytes: staged for a slot, or written to local memory as one store of the grid (R235, R292). -/
def deliverRead (s : State) (g : Nat) (o : LeatOp) (b : Beat) (line : List Byte) : State :=
  let part (r : Run) := (line.drop (r.va % 64)).take r.len
  if o.hasLocal then
    s.homeBytes g (b.runs.flatMap fun r =>
      (List.range r.len).filterMap fun i => (s.resolve o.cid (o.lAddr r.t + BitVec.ofNat 64 (r.off + i)) 1).map fun p => (p.1, p.2, (part r).getD i 0))
  else s.updOp g o.id fun p => { p with staged := b.runs.foldl (fun m r => m.writeN (r.t * o.us + r.off) (part r)) p.staged }
/-- The bytes of a write beat's runs, read at home from local memory (R306). -/
def writeData (s : State) (o : LeatOp) (b : Beat) : List (List Byte) :=
  b.runs.map fun r => (runPlaces s o r).map fun p => (s.readSpace p.1 p.2 1).headD 0
/-- The bytes of its line that a write beat carries, and which they are: of units that meet on a byte the last one's stands (R230). -/
def Beat.carries (b : Beat) (data : List (List Byte)) : Word64 × List Byte :=
  (b.runs.zip data).foldl (fun (p : Word64 × List Byte) e =>
    let at_ := e.1.va % 64
    (p.1 ||| byteMask fun i => decide (at_ ≤ i) && decide (i < at_ + e.2.length), (p.2.take at_ ++ e.2 ++ p.2.drop (at_ + e.2.length)).take 64)) (0, List.replicate 64 0)
/-- Deliver a write beat's bytes into the die cache or home, each once (R217, R233, R292). -/
def deliverWrite (s : State) (g fn : Nat) (b : Beat) (data : List (List Byte)) : State :=
  let w := b.carries data
  (runsOf w.1).foldl (fun (s : State) r =>
    let bs := (w.2.drop r.1).take r.2
    if b.uncached s then s.writeTarget b.kind (b.target + r.1) bs
    else s.writeCached (dieOf g) fn (64 * b.line) b.kind b.target r.1 bs none) s
/-- The atomic at its home word (R247). -/
def deliverAtom (s : State) (g : Nat) (o : LeatOp) (aop : AtomOp) (t : Ty) (x e : Word64) (b : Beat) (reply : BeatReply) : Option State :=
  let n := tyWidth t / 8
  let va := (b.runs.headD { t := 0, off := 0, va := 0, len := 0 }).va
  let done (s : State) (old : Nat) := (s.updOp g o.id fun p => { p with result := extTy t old }).beatDone g o.id b.id
  match reply with
  | .data bs => if b.kind = 1 then some (done s (leNat (bs.take n))) else none
  | .home => if b.kind ≠ 0 then none else match s.homeOf (b.target + va % 64) with
    | none => none
    | some a =>
      let old := s.home.num a n
      let new := atomApply aop t old x.toNat e.toNat
      some (done (if atomWrites aop t old e.toNat then s.writeHome a (leBytes n new) else s) old)
  | .status _ | .acked _ => none
/-- What a beat reads or writes is lastingly bad: its home page, or a line of local memory or of the slot that it reads (R334, R352). -/
def State.beatBad (s : State) (o : LeatOp) (b : Beat) : Bool :=
  (b.kind == 0 && (match s.homeOf b.target with | some a => s.memBad a | none => false))
    || (o.writesGlobal && o.hasLocal && b.runs.any fun r => (runPlaces s o r).any fun p => s.lineBad (sramLine p.1 p.2))
    || (match o.kind with | .drain slot _ => b.runs.any fun r => s.slotBad (gridOf o.cid) slot o r.t | _ => false)
/-- Such a beat fails with status 6; when its data lay in a failed stack, its task fails with status 0x06 (R44, R355). -/
def State.beatLost (s : State) (g : Nat) (o : LeatOp) (b : Beat) : State :=
  let s1 := s.beatFail g o.id b 6
  let stack : Bool := b.kind == 0 && (match s.homeOf b.target with | some a => s.stackBad a | none => false)
  if stack then (match s.block? o.blk with | some x => s1.failTask x.task 6 0 | none => s1) else s1
/-- Change a beat of an operation. -/
def State.updBeat (s : State) (g op id : Nat) (f : Beat → Beat) : State :=
  s.updOp g op fun p => { p with beats := p.beats.map fun e => if e.id = id then f e else e }
/-- A beat's local bytes cannot be read or written now: a bank of theirs is held (R235), or an earlier beat of the operation writes the
same byte (R230). -/
def State.deferred (s : State) (o : LeatOp) (b : Beat) : Bool :=
  overtakes s o b || (o.hasLocal && b.runs.any fun r => s.bankBusy o.cid (runPlaces s o r))
/-- A read beat's line has come: it is delivered, or kept until its local bytes can be written (R235). -/
def readCome (s : State) (g : Nat) (o : LeatOp) (b : Beat) (line : List Byte) : State :=
  if s.deferred o b then s.updBeat g o.id b.id fun e => { e with answer := some line } else (deliverRead s g o b line).beatDone g o.id b.id
/-- A beat is answered (R227, R232 to R235); nothing happens when the answer is not one this beat can have. A write beat whose local
bytes cannot be read yet has not gone out; a lost one gets no answer (R355). -/
def completeBeat (s : State) (g : Nat) (o : LeatOp) (b : Beat) (reply : BeatReply) : State :=
  let fn := (s.blockOf (s.ctx o.cid)).fn
  match b.answer with
  | some line => readCome s g o b line
  | none => if b.lost then s else match reply with
  | .status st => if (b.kind ≠ 0 ∨ st = 6) ∧ 1 ≤ st ∧ st ≤ 6 then s.beatFail g o.id b st else s
  | _ =>
    if s.beatBad o b then s.beatLost g o b
    else match o.kind with
    | .atomic aop ty x e => (deliverAtom s g o aop ty x e b reply).getD s
    | _ =>
      if !o.writesGlobal then match beatLine s g fn b reply with
        | some (s1, line) => readCome s1 g o b line
        | none => s
      else if !b.posted && s.deferred o b then s.updBeat g o.id b.id fun e => { e with expires := (s.grid g).clk + 2 ^ 20 }
      else
        let data := match o.kind with | .drain _ _ => b.data | _ => writeData s o b
        if b.kind ≠ 0 && b.uncached s then
          if !b.posted then (deliverWrite s g fn b data).updBeat g o.id b.id fun e => { e with posted := true }
          else (match reply with | .data _ => s.beatDone g o.id b.id | _ => s)
        else (deliverWrite s g fn b data).beatDone g o.id b.id
/-- The operation and the beat that a completion names. -/
def State.findBeat (s : State) (g op beat : Nat) : Option (LeatOp × Beat) :=
  match (s.grid g).leat.find? fun o => o.id == op with
  | some o => (o.beats.find? fun b => b.id == beat).map fun b => (o, b)
  | none => none
/-- LEAT_BEAT_COMPLETE (R227): a beat's answer, or the acknowledgement of a die cache's write-back (log entry 89). -/
def execLeatBeatComplete (g op beat : Nat) (reply : BeatReply) (s : State) : Out :=
  .next (match reply with
    | .acked n => s.ackWrite n
    | _ => match s.findBeat g op beat with
      | some (o, b) => completeBeat s g o b reply
      | none => s)
/-- The beat's request crosses to another die (R216): not one that the die cache serves, nor one already answered. -/
def Beat.crosses (s : State) (g : Nat) (o : LeatOp) (b : Beat) : Bool :=
  b.answer.isNone && (b.uncached s || (!o.writesGlobal && !lineHit s (dieOf g) (s.blockOf (s.ctx o.cid)).fn b))
/-- REQUEST_TIMEOUT (R216): after 2^20 cycles of the grid's clock the operation fails with status 5; a timed-out write may or
may not have been done. The task of a request lost with a link restarts (R355). -/
def execRequestTimeout (g op beat : Nat) (s : State) : Out :=
  .next (match s.findBeat g op beat with
    | some (o, b) =>
      if ¬ (b.crosses s g o ∧ b.expires ≤ (s.grid g).clk) then s
      else if b.lost then (s.beatFail g op b 5).touch [(s.blockOf (s.ctx o.cid)).task]
      else s.beatFail g op b 5
    | none => s)

/-- Add a page to a cluster's TLB: 2,048 entries, the oldest goes (R214, log entry 97). -/
def Cluster.addPage (c : Cluster) (p : Page) : Cluster :=
  let rest := c.tlb.filter fun q => !(q.fn == p.fn && q.base == p.base && q.size == p.size)
  { c with tlb := (if rest.length < 2048 then rest else rest.drop 1) ++ [p] }
/-- The row arms a monitor and waits for its translation. -/
def Stage.onWalk : Stage → Bool
  | .walking _ => true
  | _ => false
/-- Tasks that wait for a walk: a row fetches from the granule or arms a monitor, or an operation's next unit lies in it. -/
def State.waitersFor (s : State) (d fn granule : Nat) : List Nat :=
  (s.ctxs.filterMap fun e => let b := s.blockOf e.2
    if dieOf (gridOf e.1) = d ∧ b.fn = fn ∧ (e.2.pc.toNat / 4096 = granule ∨ e.2.stage.onWalk) then some b.task else none)
    ++ s.grids.flatMap fun e => if dieOf e.1 = d then e.2.leat.filterMap fun o => match s.block? o.blk with
        | some b => if b.fn = fn ∧ o.started ∧ !o.sent ∧ (o.gAddr o.at_.1 + o.at_.2) / 4096 = granule then some b.task else none
        | none => none
      else []
/-- PAGE_WALK_COMPLETE (R213, R214): the page enters the TLBs of the die's clusters, or the failure is kept for a few cycles
for the misses that joined the walk; both clusters' TLBs take it (log entry 99). One lost with a link fails with status 5, and the tasks that
wait for it restart (R216, R355). -/
def execPageWalkComplete (d fn granule : Nat) (memError : Bool) (s : State) : Out :=
  .next (
    let cd := s.cdie d
    if !(cd.walks.any fun w => w.1 == fn && w.2.1 == granule && decide (w.2.2 ≤ cd.clk)) then s
    else
      let lost := cd.lostWalks.contains (fn, granule)
      let s0 := s.updCdie d fun x => { x with walks := x.walks.filter (fun w => !(w.1 == fn && w.2.1 == granule)), lostWalks := x.lostWalks.erase (fn, granule) }
      let s1 := if lost then s0.touch (s.waitersFor d fn granule) else s0
      let s2 := match (if lost then .error 5 else if memError then .error 6 else walkFrom s fn (4096 * granule)) with
        | .ok p => (s1.updCluster (2 * d) fun c => c.addPage p).updCluster (2 * d + 1) fun c => c.addPage p
        | .error st => s1.updCdie d fun x => { x with walkFails := x.walkFails ++ [(fn, granule, st, x.clk + 4)] }
      s2.nextWalk d)

/-! ### The meanings -/
-- BEGIN MEANINGS
/-- CPY (R236). -/
def execCpy (f : Fields) (s : State) : Out := issue (.cpy f) 0xB0 f (cpyBody 0xB0) s
/-- CPYG (R237). -/
def execCpyg (f : Fields) (s : State) : Out := issue (.cpyg f) 0xB1 f (cpygBody 0xB1) s
/-- CPYS (R238). -/
def execCpys (f : Fields) (s : State) : Out := issue (.cpys f) 0xB2 f (cpysBody 0xB2) s
/-- CPYT (R240). -/
def execCpyt (f : Fields) (s : State) : Out := issue (.cpyt f) 0xB3 f (cpytBody 0xB3) s
/-- CPYD (R241). -/
def execCpyd (f : Fields) (s : State) : Out := issue (.cpyd f) 0xB4 f (cpydBody 0xB4) s
/-- GATOM (R247). -/
def execGatom (f : Fields) (s : State) : Out := issue (.gatom f) 0xB5 f (gatomBody 0xB5) s
/-- TCLAIM (R244). -/
def execTclaim (f : Fields) (s : State) : Out := issue (.tclaim f) 0xB6 f (tclaimBody) s
/-- TREL (R245). -/
def execTrel (f : Fields) (s : State) : Out := issue (.trel f) 0xB7 f (trelBody) s
/-- TSTAT (R246). -/
def execTstat (f : Fields) (s : State) : Out := issue (.tstat f) 0xB8 f (tstatBody) s
-- END MEANINGS
end Sys2Proof.Machine
end

