-- ==== Sys2Proof/Machine/Banks.lean ====
section
/-! DEFINITION. The bank ALUs (R248 to R255): the meanings of opcodes 0xA4 to 0xA9 and of BANK_OP_DONE. A bank operation takes
effect in program order when it issues; nothing that could see the bank earlier than its end issues before that. -/
namespace Sys2Proof.Machine

/-- The key of a bank's state: bq at 64 q, ba at 512 + 64 j (R248). -/
def bankKey (g bank : Nat) : Nat := 1024 * (32 * g + bank)
/-- Banks of a mask. -/
def banksOf (m : Word32) : List Nat := lanesOf m
/-- When the context's earlier operations on any of the banks have ended (R250). -/
def bankStart (s : State) (cid : Nat) (m : Word32) : Nat :=
  (s.ctx cid).bankOps.foldl (fun n e => if e.2.1 &&& m = 0 then n else max n e.2.2.1) (s.now cid)
/-- The context's earlier stores to the banks are home (R250). -/
def bankStoresHome (s : State) (cid : Nat) (m : Word32) : Bool :=
  (s.ctx cid).stores.all fun st => st.home || st.bytes.all fun e => e.1 != .side (gridOf cid) || !m.getLsbD (bankOf e.2.1)
/-- Put a bank operation under way (R250): it ends some cycles after it starts and returns its buckets then. -/
def State.bankOp (s : State) (cid op : Nat) (f : Fields) (m : Word32) (lat : Nat) : State :=
  let start := bankStart s cid m
  s.updCtx cid fun x => { x with bankOps := x.bankOps ++ [(x.nextId, m, start + lat, priceOf s cid op f)], nextId := x.nextId + 1 }

/-- A context whose wait for a mask ended in this cycle, and which comes after cid in the order of R249: cid goes before it. -/
def State.yieldsMask (s : State) (cid : Nat) (e : Nat × Ctx) : Bool := e.2.stage == .gotMask (s.now cid) && decide (cid < e.1)
/-- A mask can be taken whole (R249): no bank of it is held by another context, nor was let go by another in this cycle. -/
def State.maskFree (s : State) (cid : Nat) (m : Word32) : Bool :=
  !(s.ctxs.any fun e => e.1 != cid && gridOf e.1 == gridOf cid && e.2.banks &&& m != 0 && !s.yieldsMask cid e)
    && !((s.grid (gridOf cid)).freed.any fun e => e.1 == s.now cid && e.2.1 != cid && e.2.2 &&& m != 0)
/-- The masks that contexts of grid g wait for are taken where they are free, lowest row and slot first (R249). -/
def State.takeMasks (s : State) (g : Nat) : State :=
  (s.ctxs.filter fun e => gridOf e.1 == g).foldl (fun (s : State) e => match e.2.stage with
    | .wantMask m => if s.maskFree e.1 m then s.updCtx e.1 fun x => { x with banks := m, stage := .gotMask (s.grid g).clk } else s
    | _ => s) s
/-- Take a mask: before the contexts of higher rows whose wait ended in this cycle, which take theirs after it, with the others that wait (R249). -/
def State.takeMask (s : State) (cid : Nat) (m : Word32) : State :=
  let t := s.mapCtxs fun c x =>
    if gridOf c = gridOf cid ∧ s.yieldsMask cid (c, x) then { x with banks := 0, stage := .wantMask x.banks } else x
  (t.updCtx cid fun x => { x with banks := m }).takeMasks (gridOf cid)
/-- bkmode (R249): the banks held so far go; the mask is taken whole now if it is free, else in the first cycle in which it
is. -/
def bkmodeBody (cid : Nat) (f : Fields) (s : State) : Res :=
  let m : Word32 := (scalarOf (s.ctx cid) f false f.a).setWidth 32
  match (s.ctx cid).stage with
  | .gotMask _ => .done s
  | .wantMask w => .stay (.wantMask w)
  | _ => if s.maskFree cid m then .done ((s.releaseBanks cid).takeMask cid m)
    else .hold (s.releaseBanks cid) (.wantMask m)
/-- bkbcast (R251). -/
def bkbcastBody (op cid : Nat) (f : Fields) (s : State) : Res :=
  let g := gridOf cid
  let m := (s.ctx cid).banks
  let h := ofBool (f.fn.getLsbD 3)
  let v := (srcsOf s cid op f).a
  let bytes := (List.range 16).flatMap fun i => leBytes 4 (v.get (16 * h + i)).toNat
  let mem := (banksOf m).foldl (fun mm b => mm.writeN (bankKey g b + 64 * (f.fn.toNat % 8)) bytes) s.bankMem
  if !bankStoresHome s cid m then .stay .fresh else .done (({ s with bankMem := mem }.popFor cid op f).bankOp cid op f m 2)
/-- One line into an accumulator of a bank (R149, R252). -/
def bkLine (p : Fp) (mem : Mem) (acc q : Nat) (x : List Byte) : Mem :=
  let xs := halvesOf x
  let qs := halvesOf (mem.readN q 64)
  (List.range 16).foldl (fun m k =>
    m.writeNum (acc + 4 * k) 4 (bankStep p (mem.num (acc + 4 * k) 4) (xs.getD (2 * k) 0) (qs.getD (2 * k) 0) (xs.getD (2 * k + 1) 0) (qs.getD (2 * k + 1) 0))) mem
/-- bkmac (R252). -/
def bkmacBody (op cid : Nat) (f : Fields) (s : State) : Res :=
  let g := gridOf cid
  let m := (s.ctx cid).banks
  let w := scalarOf (s.ctx cid) f false f.a
  let count := bitsOf w 31 20
  let sp := (s.blockOf (s.ctx cid)).spanOn g
  let line (n : Nat) : Nat := (bitsOf w 9 0 + n * bitsOf w 19 10) % 1024
  let addr (n b : Nat) : Nat := line n * 2048 + b * 64
  let bad := (List.range count).flatMap fun n => ((banksOf m).filter fun b => !(decide (sp.base ≤ addr n b) && decide (addr n b + 64 ≤ sp.lim))).map (addr n)
  match bad with
  | a :: rest => .trap 4 0 (BitVec.ofNat 64 (rest.foldl min a)) 0
  | [] =>
    if !bankStoresHome s cid m then .stay .fresh
    else
      let j := f.fn.toNat % 4
      let q := f.fn.toNat / 4
      let mem := (banksOf m).foldl (fun mm b => (List.range count).foldl (fun mm n =>
        bkLine (fpOf f.mod) mm (bankKey g b + 512 + 64 * j) (bankKey g b + 64 * ((q + n) % 8)) (s.side.readN (2 ^ 21 * g + addr n b) 64)) mm) s.bankMem
      .done (({ s with bankMem := mem }.checked cid).bankOp cid op f m (count + 6))
/-- bkget (R253); lines 16 b to 16 b + 15 of array 2 are bank b's state (R325, R334). -/
def bkgetBody (op cid : Nat) (f : Fields) (s : State) : Res :=
  let x := s.ctx cid
  let g := gridOf cid
  let a := scalarOf x f false f.a
  let u := bitsOf a 4 0
  let w := bitsOf a 12 8
  let held (b : Nat) : Bool := x.banks.getLsbD b
  let both : Word32 := BitVec.ofNat 32 (2 ^ u) ||| BitVec.ofNat 32 (2 ^ w)
  if bitsOf a 7 5 ≠ 0 ∨ bitsOf a 63 13 ≠ 0 ∨ !held u ∨ !held w then .trap 4 0 a 0
  else if !bankStoresHome s cid both then .stay .fresh
  else
    let j := f.fn.toNat % 4
    let val : Lanes := tab 32 fun l => BitVec.ofNat 32 (s.bankMem.num (bankKey g (if l < 16 then u else w) + 512 + 64 * j + 4 * (l % 16)) 4)
    let lat := bankStart s cid both + 4 - s.now cid
    let bad := s.sramBad g 2 (16 * u + 8 + j) || s.sramBad g 2 (16 * w + 8 + j)
    .done (((s.checked cid).vectorResult cid f lat val (x.active f) 0 (priceOf s cid op f) [] false false).poisonLast cid bad 0)
/-- bkclr (R254). -/
def bkclrBody (op cid : Nat) (f : Fields) (s : State) : Res :=
  let g := gridOf cid
  let m := (s.ctx cid).banks
  let js := (List.range 4).filter fun j => f.fn.getLsbD j
  let mem := (banksOf m).foldl (fun mm b => js.foldl (fun mm j => mm.clear (bankKey g b + 512 + 64 * j) 64) mm) s.bankMem
  if !bankStoresHome s cid m then .stay .fresh else .done ({ s with bankMem := mem }.bankOp cid op f m 1)
/-- An element of bkscan counts: any bit of an integer, a float other than a zero (R255). -/
def scanCounts (t : Ty) (x : Nat) : Bool := if tyFloat t then x % 2 ^ (tyWidth t - 1) != 0 else x != 0
/-- The banks that places of the context's own side memory lie in. -/
def banksAt (ps : List Place) : Word32 := ps.foldl (fun m p => m ||| BitVec.ofNat 32 (2 ^ bankOf p.off)) 0
/-- bkscan (R255). Where both ranges leave the block's memory, or both addresses are out of line, trapaddr is the source's: the rule does not say
which (log entry 121). -/
def bkscanBody (op cid : Nat) (f : Fields) (s : State) : Res :=
  let x := s.ctx cid
  let g := gridOf cid
  let src := (scalarOf x f false f.a).toNat
  let b := scalarOf x f false f.b
  let list := bitsOf b 31 0
  let n := bitsOf b 47 32
  let es := tyWidth f.mod / 8
  let sp := (s.blockOf x).spanOn g
  let outside (lo len : Nat) : Option Nat :=
    if len = 0 then none else if lo < sp.base ∨ sp.lim ≤ lo then some lo else if sp.lim < lo + len then some sp.lim else none
  if bitsOf b 63 48 ≠ 0 then .trap 4 0 b 0
  else match outside src (n * es) with
  | some a => .trap 4 0 (BitVec.ofNat 64 a) 0
  | none => match outside list (2 * n) with
  | some a => .trap 4 0 (BitVec.ofNat 64 a) 0
  | none =>
    if src % es ≠ 0 then .trap 5 0 (BitVec.ofNat 64 src) 0
    else if list % 2 ≠ 0 then .trap 5 0 (BitVec.ofNat 64 list) 0
    else
      let place (a : Nat) : Place := { lane := 0, sp := .side g, off := a }
      let ps := ((List.range (n * es)).map fun i => place (src + i)) ++ ((List.range (2 * n)).map fun i => place (list + i))
      if bankWait s cid 1 ps || !bankStoresHome s cid (banksAt ps) then .stay .fresh
      else
        let bytes := s.side.readN (2 ^ 21 * g + src) (n * es)
        let hits := (List.range n).filter fun e => scanCounts f.mod (leNat ((bytes.drop (e * es)).take es))
        let out := (List.range hits.length).flatMap fun j => placeBytes (place (list + 2 * j)) (leBytes 2 (hits.getD j 0))
        let lat := 8 + (n * tyWidth f.mod + 511) / 512
        let writes := match f.d with | .s k => if f.nowb then [] else [RegWrite.s k.val (BitVec.ofNat 64 hits.length)] | _ => []
        let bad := (linesOf src (n * es)).any fun k => decide (0 < n) && s.lineBad (g, k)
        .done ((((s.homeBytes g out).checked cid).launch cid lat writes 0 (priceOf s cid op f)).poisonLast cid bad (BitVec.ofNat 64 src))
/-- BANK_OP_DONE (R250): an operation of grid g whose end has come returns its buckets. -/
def execBankOpDone (g id : Nat) (s : State) : Out :=
  .next (match s.ctxs.find? fun e => gridOf e.1 == g && e.2.bankOps.any fun o => o.1 == id && decide (o.2.2.1 ≤ (s.grid g).clk) with
    | none => s
    | some (cid, x) =>
      let gone := x.bankOps.filter fun o => o.1 == id && decide (o.2.2.1 ≤ (s.grid g).clk)
      (s.setCtx cid { x with bankOps := x.bankOps.filter fun o => !(gone.contains o) }).returnBuckets g (gone.foldl (fun n o => n + o.2.2.2) 0))

/-! ### The meanings -/
-- BEGIN MEANINGS
/-- BKMODE (R249). -/
def execBkmode (f : Fields) (s : State) : Out := issue (.bkmode f) 0xA4 f (bkmodeBody) s
/-- BKBCAST (R251). -/
def execBkbcast (f : Fields) (s : State) : Out := issue (.bkbcast f) 0xA5 f (bkbcastBody 0xA5) s
/-- BKMAC (R252). -/
def execBkmac (f : Fields) (s : State) : Out := issue (.bkmac f) 0xA6 f (bkmacBody 0xA6) s
/-- BKGET (R253). -/
def execBkget (f : Fields) (s : State) : Out := issue (.bkget f) 0xA7 f (bkgetBody 0xA7) s
/-- BKCLR (R254). -/
def execBkclr (f : Fields) (s : State) : Out := issue (.bkclr f) 0xA8 f (bkclrBody 0xA8) s
/-- BKSCAN (R255). -/
def execBkscan (f : Fields) (s : State) : Out := issue (.bkscan f) 0xA9 f (bkscanBody 0xA9) s
-- END MEANINGS
end Sys2Proof.Machine
end

