-- ==== Sys2Proof/Machine/Work.lean ====
section
/-! DEFINITION. Records, bins, queues and the work instructions (R14 to R16, R35 to R50): the meanings of opcodes 0xE0 to 0xE3
and of BIN_INSERT, BIN_TIMER_EXPIRY, GNOUT_RECORD_ARRIVAL, QUEUE_TO_BIN, QUEUE_SWAP_OUT, QUEUE_SWAP_IN, INVOKE_SEND,
INVOKE_ANSWER, INVOKE_RESEND, INVOKE_GIVE_UP, RETIRE_WRITE, RETIRE_ACK, RETIRE_WRITE_RESEND, RETAINED_ENTRY_EXPIRY. -/
namespace Sys2Proof.Machine

/-! ### Affinity and nodes -/
/-- The translation of a VA of function f as the queue manager and the placer make it: ranges, then a walk at home. -/
def State.vaTrans (s : State) (fn va : Nat) : Trans :=
  if va ≥ 2 ^ 52 then .fail 1
  else match s.ranges.find? fun e => rangeHolds e.2 fn va with
  | some e => rangeTrans e.2 va
  | none => match walkFrom s fn va with
    | .ok p => leafTrans p.size p.leaf va
    | .error st => .fail st
/-- The walk for a VA of function f, where its translation takes one, waits while the interleave table is rewritten (R210). -/
def State.walkWaits (s : State) (fn va : Nat) : Bool :=
  decide (va < 2 ^ 52) && !(s.ranges.any fun e => rangeHolds e.2 fn va) && s.walkHeld fn va
/-- The M-die that keeps a record's bin (R16). -/
def State.affHome (s : State) (fn node va : Nat) : Nat :=
  match s.vaTrans fn va with
  | .ok 0 t _ _ _ => ((s.homeOf t).map mdieOf).getD (node % 4)
  | _ => node % 4
/-- A handler node of a loaded graph slot. -/
def State.handlerNode? (s : State) (slot node : Nat) : Option Node :=
  let sl := s.slot slot
  if sl.code = 0 ∧ node < Image.ncount sl.image then
    let n := Image.node sl.image node
    if n.handler then some n else none
  else none
/-- The header of a record's node and the function it belongs to: of a replay's private copy, or of the slot's image under which it was
accepted. No rule says under which image a record launches that a new upload of its slot finds accepted (R24, R29, R50): in this model under
the one that accepted it (log entry 114), so that a rejected image launches nothing (R21). -/
def State.binHome (s : State) (b : BinRec) : Nat × Node :=
  match b.replay.bind fun r => s.replay? r with
  | some rp => (rp.fn, Image.node rp.image b.r.handler)
  | none => b.old.getD ((s.slot b.slot).fn, Image.node (s.slot b.slot).image b.r.handler)
/-- The header of a bin's node. -/
def State.binNode (s : State) (b : BinRec) : Node := (s.binHome b).2
/-- The function that a bin's record belongs to. -/
def State.binFn (s : State) (b : BinRec) : Nat := (s.binHome b).1
/-- What the accepted handler records and the queues of a slot are bound to goes with them when its image is about to be replaced (log entry
114). A record that spawn or invoke still holds in the journal is not accepted yet. -/
def State.keepOld (s : State) (slot : Nat) : State :=
  let sl := s.slot slot
  let was (node : Nat) : Option (Nat × Node) := some (sl.fn, Image.node sl.image node)
  let keepRec (r : BinRec) : BinRec := if r.slot = slot ∧ r.replay = none ∧ r.old = none then { r with old := was r.r.handler } else r
  let keepBin (b : Bin) : Bin :=
    if b.slot = slot ∧ b.old = none ∧ b.recs.all (fun r => r.replay.isNone) then { b with old := was b.node, recs := b.recs.map keepRec } else b
  { s with mdies := Tables.mapVal (fun _ x => { x with inserts := x.inserts.map keepRec, bins := x.bins.map keepBin }) s.mdies
           queues := Tables.mapVal (fun _ (q : Queue) => if q.slot = slot ∧ q.old = none then { q with old := was q.node } else q) s.queues }

/-! ### Launch counts (R36, R43) -/
/-- Low(m): the oldest launch count with a released, unanswered invoked record, else the next (R43); a record that pacing keeps in the journal
is not released. -/
def State.low (s : State) (m : Nat) : Nat :=
  let l := (s.mdie m).launch
  let mine := (s.invoked.filter fun i => !i.waits && i.h.serial / 2 ^ 30 == m).map fun i => i.h.serial % 2 ^ 30
  mine.foldl (fun best c => if (l + 2 ^ 30 - best) % 2 ^ 30 < (l + 2 ^ 30 - c) % 2 ^ 30 then c else best) l
/-- Low(m) counted on, not modulo 2^30. -/
def State.lowOn (s : State) (m : Nat) : Nat :=
  let x := s.mdie m
  2 ^ 30 * x.laps + x.launch - (x.launch + 2 ^ 30 - s.low m) % 2 ^ 30
/-- A block may be formed on m (R43). -/
def State.mayForm (s : State) (m : Nat) : Bool := decide (((s.mdie m).launch + 2 ^ 30 - s.low m) % 2 ^ 30 < 2 ^ 29)
/-- c lies in [f, t) modulo 2^30 (R43). -/
def inLaunch (c f t : Nat) : Bool := decide ((c + 2 ^ 30 - f) % 2 ^ 30 < (t + 2 ^ 30 - f) % 2 ^ 30)
/-- UALink ports (R2). -/
def ualPorts : Nat := 12
/-- A write to a peer, through any port that works (R42, R43); with none working nothing leaves. -/
def State.linkOut (s : State) (acc : Nat) (bs : List Byte) : State :=
  if s.badPorts.length < ualPorts then s.emit (.linkWrite acc bs) else s
/-- The bytes of a retire write (R43). -/
def retireBytes (src m f t : Nat) : List Byte := leBytes 2 src ++ leBytes 1 m ++ leBytes 4 f ++ leBytes 4 t ++ leBytes 5 0
/-- Retained entries of a source that a retire write covers go (R43). -/
def State.dropRetained (s : State) (src m f t : Nat) : State :=
  { s with retained := s.retained.filter fun e => !(e.source == src && e.seq / 2 ^ 50 % 4 == m && inLaunch (e.seq / 2 ^ 20 % 2 ^ 30) f t) }
/-- Low(m) has moved from f: retire writes go to every device sent a record in between; this device's own is done at once. -/
def State.lowMoved (s : State) (m f : Nat) : State :=
  let t := s.low m
  if t = f then s
  else
    let hit := s.sentTo.filter fun e => e.2.1 == m && inLaunch e.2.2 f t
    let targets := (hit.map (·.1)).eraseDups
    let s1 := { s with sentTo := s.sentTo.filter fun e => !hit.contains e }
    targets.foldl (fun (s : State) acc =>
      if acc = s.accId then s.dropRetained acc m f t
      else
        let w : RetireW := { acc := acc, m := m, f := f, t := t, sent := s.xclk, from_ := s.lowOn m - (t + 2 ^ 30 - f) % 2 ^ 30 }
        let s2 := { s with retireWrites := s.retireWrites ++ [w] }
        s2.linkOut acc (retireBytes s.accId m f t)) s1

/-! ### Bins and blocks -/
/-- A class of a bin. -/
def MDie.bin? (x : MDie) (slot node prio : Nat) (old : Option (Nat × Node) := none) : Option Bin :=
  x.bins.find? fun b => b.slot == slot && b.node == node && b.prio == prio && b.old == old
def MDie.setBin (x : MDie) (b : Bin) : MDie :=
  let rest := x.bins.filter fun e => !(e.slot == b.slot && e.node == b.node && e.prio == b.prio && e.old == b.old)
  { x with bins := if b.recs.isEmpty then rest else rest ++ [b] }
/-- Records of a class, with those on their way into it. -/
def MDie.classCount (x : MDie) (slot node prio : Nat) (old : Option (Nat × Node) := none) : Nat :=
  (match x.bin? slot node prio old with | some b => b.recs.length | none => 0)
    + (x.inserts.filter fun e => e.slot == slot && e.r.handler == node && e.r.prio == prio && e.old == old).length
/-- The task of a seeded node in a replay that has not finished. -/
def State.seedTask? (s : State) (replay node : Nat) : Option Nat :=
  (s.tasks.find? fun e => e.2.replay == some replay && e.2.node == node).map (·.1)
/-- Form a block of M-die m from records of one class (R14, R36, R55): the launch serial, the ready list, and for a handler
node a task of its own. -/
def State.formBlock (s : State) (m : Nat) (recs : List BinRec) : State :=
  match recs.head? with
  | none => s
  | some r0 =>
    let md := s.mdie m
    let hdr := s.binNode r0
    let fn := s.binFn r0
    let serial := m * 2 ^ 30 + md.launch
    let low0 := s.low m
    let (s1, task) := match r0.replay.bind fun r => s.seedTask? r r0.r.handler with
      | some t => (s, t)
      | none =>
        let t := s.nextTask
        let s1 := { s with nextTask := t + 1 }
        (s1.setTask t { fn := fn, slot := r0.slot, node := r0.r.handler, replay := r0.replay, hdr := hdr, total := 1, order := serial }, t)
    let b := s1.nextBlock
    let blk : Block := { task := task, fn := fn, slot := r0.slot, node := r0.r.handler, hdr := hdr, blkid := r0.blkid, prio := r0.r.prio
                         recs := recs.map (·.r), bin := m, serial := serial, formed := md.clk }
    let s2 := { s1 with nextBlock := b + 1 }
    ((s2.setBlock b blk).updMdie m fun (x : MDie) => { x with launch := (x.launch + 1) % 2 ^ 30, laps := x.laps + (x.launch + 1) / 2 ^ 30, ready := x.ready ++ [b] }).lowMoved m low0
/-- The records of a class that can launch now: a full handler block, or one whose timer has expired (R14); a seeded block
that is complete, in seed-index order. -/
def State.launchable (s : State) (m : Nat) (b : Bin) (timed : Bool) : Option (List BinRec) :=
  match b.recs.head? with
  | none => none
  | some r0 =>
    let hdr := s.binNode r0
    if hdr.handler then
      if hdr.ccount ≤ b.recs.length then some (b.recs.take hdr.ccount)
      else match b.timer with
        | some t => if timed && hdr.timer != 0xFFFFFFFF && decide (t + hdr.timer ≤ (s.mdie m).clk) then some b.recs else none
        | none => none
    else
      b.recs.findSome? fun r =>
        let grp := b.recs.filter fun e => e.replay == r.replay && e.blkid == r.blkid
        if r.need ≤ grp.length then some (sortBy (fun x y => decide (x.r.seq ≤ y.r.seq)) grp) else none
/-- Launch from a class if it can (R14, R43); the timer restarts over the records left behind. -/
def State.launchFrom (s : State) (m : Nat) (b : Bin) (timed : Bool) : State :=
  match s.launchable m b timed with
  | none => s
  | some recs =>
    if !s.mayForm m then s
    else
      let s1 := s.updMdie m fun x => x.setBin { b with recs := b.recs.filter fun e => !recs.contains e, timer := some x.clk }
      s1.formBlock m recs
/-- A record on its way into a bin of M-die m: it enters in this cycle (R14, R23, R37, R47). -/
def State.toBin (s : State) (m : Nat) (r : BinRec) : State :=
  let s1 := s.updMdie m fun x => { x with inserts := x.inserts ++ [r] }
  { s1 with agenda := .event (.binInsert m) :: s1.agenda }
/-- The timer of a class has run out (R14): a timer of 0 in the cycle it starts. -/
def State.timedOut (s : State) (m : Nat) (b : Bin) (hdr : Node) : Bool :=
  match b.timer with
  | some t => hdr.handler && !b.recs.isEmpty && hdr.timer != 0xFFFFFFFF && decide (t + hdr.timer ≤ (s.mdie m).clk)
  | none => false
/-- BIN_INSERT (R14, R40): the next record on its way enters its class; a block forms when that completes one. A timer that runs out in
this cycle is looked at once every record of the cycle has entered. -/
def execBinInsert (m : Nat) (s : State) : Out :=
  .next (match (s.mdie m).inserts with
    | [] => s
    | r :: rest =>
      let md := s.mdie m
      let old : Bin := (md.bin? r.slot r.r.handler r.r.prio r.old).getD { slot := r.slot, node := r.r.handler, prio := r.r.prio, old := r.old }
      let b := { old with recs := old.recs ++ [r], timer := if old.recs.isEmpty then some md.clk else old.timer }
      let t := (s.setMdie m ({ md with inserts := rest }.setBin b)).launchFrom m b false
      if s.timedOut m b (s.binNode r) then { t with agenda := t.agenda ++ [.event .binTimerExpiry] } else t)
/-- A class of some M-die whose timer has expired or that can launch now (R14). -/
def State.dueBin (s : State) : Option (Nat × Bin) :=
  (List.range 4).findSome? fun m => ((s.mdie m).bins.find? fun b => (s.launchable m b true).isSome && s.mayForm m).map fun b => (m, b)
/-- BIN_TIMER_EXPIRY (R14): the first class that is due, M-die by M-die, launches; then the next that is. -/
def execBinTimerExpiry (s : State) : Out :=
  .next (match s.dueBin with
    | some (m, b) =>
      let t := s.launchFrom m b true
      if t.dueBin.isSome then { t with agenda := .event .binTimerExpiry :: t.agenda } else t
    | none => s)

/-- The affinity address of block i of a node (R16). -/
def Node.affAddr (n : Node) (i : Nat) : Nat := (n.affbase + i * n.affstride) % 2 ^ 52
/-- The walk to the affinity of some block of a seeded node waits (R210). -/
def State.seedsHeld (s : State) (fn : Nat) (n : Node) : Bool :=
  s.itbusy && (List.range ((n.seedcount + n.ccount - 1) / n.ccount)).any fun i => s.walkWaits fn (n.affAddr i)
/-- Place a seeded node's records (R16, R23, R35, R36); a join places none and is finished by SUCCESSOR_START (R12). -/
def State.startNode (s : State) (r node : Nat) : State :=
  match s.replay? r with
  | none => s
  | some rp =>
    let n := Image.node rp.image node
    let s1 := s.setReplay r { rp with started := rp.started ++ [node] }
    if n.seedcount = 0 then s1
    else
      let t := s1.nextTask
      let s2 := ({ s1 with nextTask := t + 1 }).setTask t
        { fn := rp.fn, slot := rp.slot, node := node, replay := some r, hdr := n, total := (n.seedcount + n.ccount - 1) / n.ccount, order := rp.count }
      (List.range n.seedcount).foldl (fun (s : State) i =>
        let blkid := i / n.ccount
        let m := s.affHome rp.fn node (n.affAddr blkid)
        let rec_ : Rec := { handler := node, prio := n.prio, seed := true, source := s.accId, seq := rp.count * 2 ^ 20 + i, args := Image.seedArgs rp.image n i }
        s.toBin m { r := rec_, slot := rp.slot, replay := some r, blkid := blkid, need := min n.ccount (n.seedcount - n.ccount * blkid) }) s2

/-! ### Record bytes (R35) -/
def recBytes (r : Rec) : List Byte :=
  leBytes 4 (r.qidx * 2 ^ 20 + r.qgen) ++ leBytes 2 r.handler ++ leBytes 1 r.prio
    ++ leBytes 1 (r.seq / 2 ^ 48 * 16 + ofBool r.seed * 8 + ofBool r.spawn * 4) ++ leBytes 2 r.source ++ leBytes 6 (r.seq % 2 ^ 48) ++ r.args
/-- The record of 64 bytes. -/
def Rec.ofBytes (bs : List Byte) : Rec :=
  let n (o k : Nat) : Nat := leNat ((bs.drop o).take k)
  { qidx := n 0 4 / 2 ^ 20, qgen := n 0 4 % 2 ^ 20, handler := n 4 2, prio := n 6 1 % 16, seed := bitAt (n 7 1) 3, spawn := bitAt (n 7 1) 2
    source := n 8 2 % 1024, seq := n 10 6 + n 7 1 / 16 * 2 ^ 48, args := bs.drop 16 }
/-- Record line i of the record area, and line 0 (R15). -/
def recordArea (b : Block) : List Byte :=
  leBytes 2 b.recs.length ++ leBytes 2 b.node ++ List.replicate 60 (0 : Byte)
    ++ (List.range b.hdr.ccount).flatMap fun i => match b.recs[i]? with | some r => recBytes r | none => List.replicate 64 (0 : Byte)
/-- The cause a spawn or invoke future fails with (R46). -/
def workCause (status : Nat) : Nat := if status = 2 then 8 else if status = 7 then 9 else 6
/-- Settle a spawn's or invoke's future with a status (R46). -/
def State.settleWork (s : State) (h : Option Word32) (status : Nat) : State :=
  match h with
  | none => s
  | some hd => if status = 0 then s.settle hd 2 0 0 else s.settle hd 3 (BitVec.ofNat 64 status) (workCause status)

/-! ### The queue manager (R37 to R39, R371) -/
def queueArea : Nat := 32 * 2 ^ 20
/-- Accepted records not yet in the bin (R37). -/
def Queue.occupancy (q : Queue) : Nat := q.recs.length + q.used.length
/-- A queue with an index still in use (R50). -/
def Queue.inUse (q : Queue) : Bool := q.live || q.occupancy != 0
def State.queuesAt (s : State) (m : Nat) : List (Nat × Queue) := s.queues.filter fun e => e.2.home == m && e.2.inUse
def Queue.need (q : Queue) : Nat := if q.spill then 64 * q.recs.length else 64 * q.cap
/-- Bytes of the queue area in use. -/
def State.areaUsed (s : State) (m : Nat) : Nat := (s.queuesAt m).foldl (fun n e => n + e.2.need) 0
/-- Pages of the ring that cannot be read or written any more (R44, R352). -/
def State.badRing (s : State) (q : Queue) : List Nat :=
  (List.range q.pages).filter fun k => match s.homeOf (q.ring.getD k 0) with | some a => s.memBad a | none => false
/-- The ring is full (R38): every place of its good pages is in use. -/
def State.ringFull (s : State) (q : Queue) : Bool := decide (64 * (q.pages - (s.badRing q).length) ≤ q.used.length)
/-- The first place from i on, cyclically, that is not taken; one place more than are taken is enough. -/
def freePlace (taken : Nat → Bool) (n : Nat) : Nat → Nat → Nat
  | 0, i => i
  | k + 1, i => if taken i then freePlace taken n k ((i + 1) % n) else i
/-- The PA of a place of the ring: 64 records in each page (R38). -/
def Queue.placePa (q : Queue) (i : Nat) : Nat := q.ring.getD (i / 64) 0 + 64 * (i % 64)
/-- The place that the next record takes: the one after the last taken, passing over bad pages (log entries 88, 106). -/
def State.nextPlace (s : State) (q : Queue) : Nat :=
  let bad := s.badRing q
  freePlace (fun i => q.used.contains i || bad.contains (i / 64)) (64 * q.pages) (q.used.length + 64 * bad.length)
    (match q.used.getLast? with | some i => (i + 1) % (64 * q.pages) | none => 0)
/-- An access to a place of the ring waits while the interleave table is rewritten (R210). -/
def State.placeHeld (s : State) (q : Queue) (i : Nat) : Bool := s.heldPa (q.placePa i)
/-- The places in use, oldest first, up to the first that a rewrite of the interleave table keeps from being read. -/
def State.readable (s : State) (q : Queue) : List Nat := q.used.takeWhile fun i => !s.placeHeld q i
/-- A record read from a place of the ring. -/
def State.ringRec (s : State) (q : Queue) (i : Nat) : Rec :=
  Rec.ofBytes (match s.homeOf (q.placePa i) with | some a => s.home.readN a 64 | none => List.replicate 64 (0 : Byte))
/-- A record written into queue i's ring, as its newest, or ahead of every other one in it. -/
def State.toRing (s : State) (i : Nat) (q : Queue) (r : Rec) (ahead : List Nat) : State × Queue × List Nat :=
  let p := s.nextPlace q
  let s1 := match s.homeOf (q.placePa p) with | some a => s.writeHome a (recBytes r) | none => s
  let q1 := { q with used := q.used ++ [p] }
  ({ s1 with queues := Tables.set i q1 s1.queues }, q1, ahead ++ [p])
/-- Every record that a queue holds and that can be read, oldest first, with its place where that is the ring. -/
def State.heldRecs (s : State) (q : Queue) : List (Rec × Option Nat) :=
  q.recs.map (fun r => (r, none)) ++ (s.readable q).map fun p => (s.ringRec q p, some p)
/-- A queue in the Pond takes the oldest records of its ring while its capacity has room. -/
def State.refill (s : State) (q : Queue) : Queue :=
  let taken := (s.readable q).take (q.cap - q.recs.length)
  if q.swapped then q else { q with recs := q.recs ++ taken.map (s.ringRec q), used := q.used.drop taken.length }
/-- Every queue in the Pond takes what it can of its ring. -/
def State.refillAll (s : State) : State := { s with queues := Tables.mapVal (fun _ q => s.refill q) s.queues }
/-- Records in pages of the rings that have failed go (R44, R352; log entry 106). -/
def State.dropLostRecs (s : State) : State :=
  { s with queues := Tables.mapVal (fun _ (q : Queue) =>
      let bad := s.badRing q
      let left := q.used.filter fun p => !bad.contains (p / 64)
      { q with used := left, wanted := if left.isEmpty then none else q.wanted }) s.queues }
/-- A new queue fits the area of its M-die (R371). -/
def State.queueFits (s : State) (m : Nat) (spill : Bool) (cap : Nat) : Bool :=
  let qs := s.queuesAt m
  let rej := qs.foldl (fun n e => if e.2.spill then n else n + 64 * e.2.cap) (if spill then 0 else 64 * cap)
  let big := qs.foldl (fun n e => if e.2.spill then max n (64 * e.2.cap) else n) (if spill then 64 * cap else 0)
  decide (rej + big ≤ queueArea)

/-- qnew's answer (R49). -/
def qnewAnswer (s : State) (fn : Nat) (w base : Word64) : State × Nat :=
  let slotRel := bitsOf w 23 12
  let node := bitsOf w 11 0
  let spill := w.getLsbD 28
  let cap := bitsOf w 47 32
  let pages := bitsOf w 63 48
  let maxp := bitsOf w 27 24
  let fu := s.func fn
  let slot := fu.slotBase + slotRel
  if bitsOf w 31 29 ≠ 0 then (s, 7)
  else if maxp > 11 then (s, 3)
  else if cap = 0 ∨ (spill && pages == 0) ∨ (!spill && pages != 0) ∨ (!spill && base != 0) then (s, 4)
  else match (if slotRel < fu.slotCount then s.handlerNode? slot node else none) with
  | none => (s, 2)
  | some n =>
    let page (k : Nat) : Option Nat := match s.vaTrans fn (base.toNat + 4096 * k) with
      | .ok 0 t _ w _ => if w && !bitAt t 47 && (s.homeOf t).isSome then some t else none
      | _ => none
    let ring := if spill then (List.range pages).map page else []
    if (spill && base.toNat % 4096 != 0) || ring.any (·.isNone) then (s, 5)
    else match (List.range 4096).find? fun i => match Tables.get? s.queues i with | some q => !q.inUse | none => true with
    | none => (s, 1)
    | some i =>
      let m := s.affHome fn node n.affbase
      if !s.queueFits m spill cap then (s, 6)
      else
        let gen := match Tables.get? s.queues i with | some q => q.gen | none => 1
        let q : Queue := { gen := gen, fn := fn, slot := slot, node := node, spill := spill, cap := cap, pages := pages, ring := ring.filterMap id
                           maxPrio := maxp, home := m, lastUse := (s.mdie m).clk }
        ({ s with queues := Tables.set i q s.queues }, 2 ^ 40 + i * 2 ^ 20 + gen)
/-- The walks that qnew makes wait while the interleave table is rewritten (R210): of the ring's pages, of the node's affinity address. -/
def qnewHeld (s : State) (fn : Nat) (w base : Word64) : Bool :=
  s.itbusy && (((List.range (bitsOf w 63 48)).any fun k => s.walkWaits fn (base.toNat + 4096 * k))
    || match s.handlerNode? ((s.func fn).slotBase + bitsOf w 23 12) (bitsOf w 11 0) with
      | some n => s.walkWaits fn n.affbase
      | none => false)
/-- qnew (R49): bits [63:32] the status or 0, bits [31:0] the handle. -/
def qnewBody (cid : Nat) (f : Fields) (s : State) : Res :=
  let x := s.ctx cid
  let r := qnewAnswer s (s.blockOf x).fn (scalarOf x f false f.a) (scalarOf x f false f.b)
  if !([2, 3, 4, 7].contains r.2) && qnewHeld s (s.blockOf x).fn (scalarOf x f false f.a) (scalarOf x f false f.b) then .stay .fresh else
  let v := if 2 ^ 40 ≤ r.2 then r.2 - 2 ^ 40 else r.2 * 2 ^ 32
  .done ((r.1.writeS cid f (BitVec.ofNat 64 v)).updCtx cid fun x => { x with notBefore := s.now cid + 1 })
/-- Destroy a queue: its generation moves on (R50). -/
def Queue.delete (q : Queue) : Queue := { q with live := false, gen := if q.gen = 2 ^ 20 - 1 then 1 else q.gen + 1 }
/-- qdel (R50). -/
def qdelBody (cid : Nat) (f : Fields) (s : State) : Res :=
  let x := s.ctx cid
  let h := (scalarOf x f false f.a).toNat
  let i := h / 2 ^ 20
  match Tables.get? s.queues i with
  | none => .done (s.writeS cid f 1)
  | some q =>
    if ¬ (q.live ∧ h < 2 ^ 32 ∧ q.gen = h % 2 ^ 20) then .done (s.writeS cid f 1)
    else if q.fn ≠ (s.blockOf x).fn then .done (s.writeS cid f 2)
    else .done (({ s with queues := Tables.set i q.delete s.queues }).writeS cid f 0)

/-- The record of a queue that leaves next for its bin: of the oldest one whose class has room, the earliest of its source and class in
sequence order (R37, R40). -/
def State.leaves (s : State) (q : Queue) : Option (Rec × Option Nat) :=
  let l := if q.swapped then [] else s.heldRecs q
  match l.find? fun e => decide ((s.mdie q.home).classCount q.slot q.node e.1.prio q.old < 65536) with
  | none => none
  | some e => l.foldl (fun best x => match best with
    | some y => if x.1.source = e.1.source ∧ x.1.prio = e.1.prio ∧ x.1.seq < y.1.seq then some x else some y
    | none => some x) (some e)
/-- A queue without one of its records. -/
def Queue.without (q : Queue) (e : Rec × Option Nat) : Queue :=
  match e.2 with | none => { q with recs := q.recs.erase e.1 } | some p => { q with used := q.used.erase p }
/-- QUEUE_TO_BIN (R37): a record of the first queue one of whose records finds room leaves it for the bin; then the next that does. -/
def execQueueToBin (s : State) : Out :=
  .next (match s.queues.findSome? fun e => (s.leaves e.2).map fun r => (e.1, e.2, r) with
    | none => s
    | some (i, q, r) =>
      let s1 := { s with queues := Tables.set i (s.refill { q.without r with lastUse := (s.mdie q.home).clk }) s.queues
                         agenda := .event .queueToBin :: s.agenda }
      s1.toBin q.home { r := r.1, slot := q.slot, old := q.old })
/-- A swapped queue is owed its place by now (R38). -/
def State.owedBack (s : State) (q : Queue) : Bool :=
  q.swapped && (match q.wanted with | some t => decide (t ≤ (s.mdie q.home).clk) | none => false)
/-- For how long it has been owed its place. -/
def State.owedFor (s : State) (q : Queue) : Nat := (s.mdie q.home).clk - q.wanted.getD (s.mdie q.home).clk
/-- The element of a list whose measure is largest, the first of several. -/
def largest {α : Type} (f : α → Nat) (l : List α) : Option α :=
  l.foldl (fun best e => match best with | some b => if f b < f e then some e else some b | none => some e) none
/-- The queue of m that has been owed its place longest; so each that is owed its place comes back in its turn (R38, log entry 88). -/
def State.longestOwed (s : State) (m : Nat) : Option (Nat × Queue) :=
  largest (fun e => s.owedFor e.2) ((s.queuesAt m).filter fun e => s.owedBack e.2)
/-- Bytes that the swapped queue owed its place longest needs on m (R38). -/
def State.swapNeed (s : State) (m : Nat) : Nat :=
  match s.longestOwed m with
  | some e => 64 * min e.2.used.length e.2.cap
  | none => 0
/-- A queue's records go to its ring, ahead of those that are there (R38); while it has some it is owed its place again within 2^16
cycles. -/
def State.swapOut (s : State) (i : Nat) (q : Queue) : State :=
  let r := q.recs.foldl (fun (p : State × Queue × List Nat) r => p.1.toRing i p.2.1 r p.2.2) (s, q, [])
  { r.1 with queues := Tables.set i { r.2.1 with used := r.2.2 ++ q.used, recs := [], swapped := true
                                                 wanted := if r.2.1.used.isEmpty then none else some ((s.mdie q.home).clk + 2 ^ 15) } r.1.queues }
/-- Where the area of m runs short, the longest idle spill-policy queue that its ring can hold: idle since it was made, took a record, gave one
to its bin or came back (R38, log entry 88). Where no ring can hold one none goes (log entry 94), nor does one to an interleaved ring while the
table is rewritten (R210). -/
def State.swapVictim (s : State) (m : Nat) : Option (Nat × Queue) :=
  if s.areaUsed m + s.swapNeed m ≤ queueArea then none
  else
    let qs := (s.queuesAt m).filter fun e => e.2.spill && !e.2.swapped && decide (e.2.occupancy ≤ 64 * (e.2.pages - (s.badRing e.2).length)) && !e.2.ring.any s.heldPa
    qs.foldl (fun best e => match best with | none => some e | some b => if e.2.lastUse < b.2.lastUse then some e else some b) none
/-- How long the queue owed its place longest on m has been, counted from 1; 0 where none is owed it. -/
def State.waitingFor (s : State) (m : Nat) : Nat := match s.longestOwed m with | some e => s.owedFor e.2 + 1 | none => 0
/-- QUEUE_SWAP_OUT (R38): a queue goes out, of the M-die whose queue has waited longest for its place, among those that are short of space and
have one that can go. -/
def execQueueSwapOut (s : State) : Out :=
  .next (
    match largest s.waitingFor ((List.range 4).filter fun m => (s.swapVictim m).isSome) with
    | some m => match s.swapVictim m with
      | some (i, q) => s.swapOut i q
      | none => s
    | none => s)
/-- A swapped queue with records fits the area, so many bytes of it left aside (R38). -/
def State.fitsBack (s : State) (q : Queue) (aside : Nat) : Bool :=
  q.swapped && !q.used.isEmpty && decide (s.areaUsed q.home + aside + 64 * min q.used.length q.cap ≤ queueArea)
/-- The queue owed its place longest on m, where it fits. -/
def State.owedFits (s : State) (m : Nat) : Option (Nat × Queue) := (s.longestOwed m).filter fun e => s.fitsBack e.2 0
/-- QUEUE_SWAP_IN (R38): of the queues that have been owed their place longest, one on each M-die, the one owed it longest that fits comes back;
where none fits, the first queue that fits beside what the one owed its place longest still needs. -/
def execQueueSwapIn (s : State) : Out :=
  .next (
    match (largest (fun e => s.owedFor e.2) ((List.range 4).filterMap s.owedFits)).or (s.queues.find? fun e => s.fitsBack e.2 (s.swapNeed e.2.home)) with
    | some (i, q) => { s with queues := Tables.set i (s.refill { q with swapped := false, wanted := none, lastUse := (s.mdie q.home).clk }) s.queues }
    | none => s)

/-- The answer of 16 bytes (R42). -/
def answerBytes (seq status : Nat) : List Byte := leBytes 7 seq ++ leBytes 1 status ++ List.replicate 8 (0 : Byte)
/-- Retain an answer (R42) and give it back. -/
def State.retain (s : State) (src seq status m : Nat) : State × Option Nat :=
  ({ s with retained := s.retained ++ [{ source := src, seq := seq, status := status, at_ := (s.mdie m).clk, m := m }] }, some status)
/-- Bytes o to o + k − 1 of a record, as a number. -/
def recField (bs : List Byte) (o k : Nat) : Nat := leNat ((bs.drop o).take k)
/-- The source and the sequence number of a record of 64 bytes (R35). -/
def recKey (bs : List Byte) : Nat × Nat := (recField bs 8 2 % 1024, recField bs 10 6 + recField bs 7 1 / 16 * 2 ^ 48)
/-- Steps 3 to 8 of R39 on a record of 64 bytes: the status of a refusal, with the M-die that keeps it, or the queue that takes the record. -/
def State.checkRec (s : State) (bs : List Byte) : Except (Nat × Nat) Queue :=
  let n := recField bs
  if n 6 1 / 16 ≠ 0 ∨ n 7 1 % 4 ≠ 0 ∨ n 8 2 / 1024 ≠ 0 ∨ bitAt (n 7 1) 3 ∨ bitAt (n 7 1) 2 ∨ n 6 1 % 16 > 11 then .error (4, 0)
  else match Tables.get? s.queues (n 0 4 / 2 ^ 20) with
  | none => .error (2, 0)
  | some q =>
    if ¬ (q.live ∧ q.gen = n 0 4 % 2 ^ 20) then .error (2, q.home)
    else if n 4 2 ≠ q.node then .error (3, q.home)
    else if q.cap ≤ q.occupancy ∧ (!q.spill || s.ringFull q) then .error (1, q.home)
    else .ok q
/-- A record that the queue takes goes into the Pond: there is room, and none in the ring is to go before it. -/
def Queue.takesInPond (q : Queue) : Bool := !q.swapped && decide (q.recs.length < q.cap) && q.used.isEmpty
/-- The checks of R39 on a record of 64 bytes. One that a swapped queue is to take while its ring is full brings the queue back into the Pond at
once (log entry 88); a queue takes records up to its capacity, even where the area runs short (log entry 94). -/
def State.receive (s : State) (bs : List Byte) : State × Option Nat :=
  let (src, seq) := recKey bs
  match s.retained.find? fun e => e.source == src && e.seq == seq with
  | some e => (s, some e.status)
  | none => match s.checkRec bs with
    | .error e => s.retain src seq e.1 e.2
    | .ok q =>
      let i := recField bs 0 4 / 2 ^ 20
      let r : Rec := { qidx := i, qgen := recField bs 0 4 % 2 ^ 20, handler := q.node, prio := min (recField bs 6 1 % 16) q.maxPrio
                       source := src, seq := seq, args := bs.drop 16 }
      let q1 := if q.swapped && s.ringFull q then s.refill { q with swapped := false } else q
      let q2 := { q1 with lastUse := (s.mdie q.home).clk, wanted := if q1.swapped then some (min (q.wanted.getD (s.mdie q.home).clk) (s.mdie q.home).clk) else none }
      if q1.takesInPond then ({ s with queues := Tables.set i { q2 with recs := q1.recs ++ [r] } s.queues }).retain src seq 0 q.home
      else ((s.toRing i q2 r []).1).retain src seq 0 q.home
/-- A record cannot be taken yet: its queue's access to the ring waits for the interleave table's rewrite (R210). -/
def State.recHeld (s : State) (bs : List Byte) : Bool :=
  s.itbusy && !(s.retained.any fun e => (e.source, e.seq) == recKey bs) && match s.checkRec bs with
    | .error _ => false
    | .ok q => if q.swapped && s.ringFull q then q.used.any (s.placeHeld q) else !q.takesInPond && (s.ringFull q || s.placeHeld q (s.nextPlace q))
/-- GNOUT_RECORD_ARRIVAL (R39): a write of len bytes at an offset of the invocation aperture; it waits where its queue's ring does (R210). -/
def execGnoutRecordArrival (len off : Nat) (data : BitVec 512) (s : State) : Out :=
  .next (
    if len ≠ 64 ∨ off % 64 ≠ 0 then s.emit .linkError
    else
      let bs := leBytes 64 data.toNat
      if s.recHeld bs then { s with heldReqs := s.heldReqs ++ [.gnoutRecordArrival len off data] } else
      let r := s.receive bs
      match r.2 with
      | some st => r.1.emit (.answer (leNat ((bs.drop 8).take 2) % 1024) (answerBytes (leNat ((bs.drop 10).take 6) + (leNat ((bs.drop 7).take 1) / 16) * 2 ^ 48) st))
      | none => r.1)

/-! ### Invocations (R42, R43) -/
/-- An invocation is answered with a status: its future settles, its M-die's low mark may move. -/
def State.answered (s : State) (i : Invoked) (status : Nat) : State :=
  let m := i.h.serial / 2 ^ 30
  let f := s.low m
  let s1 := { s with invoked := s.invoked.filter fun e => e != i }
  (s1.settleWork i.h.fut status).lowMoved m f
/-- Pacing (R43): the target has no unacknowledged retire write for m that lies 2^28 or more behind. -/
def State.paced (s : State) (i : Invoked) : Bool :=
  let m := i.h.serial / 2 ^ 30
  !(s.retireWrites.any fun w => some w.acc == i.h.acc && w.m == m && decide (w.from_ + 2 ^ 28 ≤ s.lowOn m))
/-- An invoked record goes out now: pacing released it, or does (R43), and its queue can take it where that is on this device (R210). -/
def State.sendable (s : State) (i : Invoked) : Bool :=
  i.sent.isNone && (!i.waits || s.paced i) && !(i.h.acc == some s.accId && s.recHeld (recBytes i.h.r))
/-- INVOKE_SEND (R42, R48): the first released record that pacing lets go is sent, or checked here when it is this device's
own. -/
def execInvokeSend (s : State) : Out :=
  .next (match s.invoked.find? s.sendable with
    | none => s
    | some i =>
      let acc := i.h.acc.getD 0
      let key := (acc, i.h.serial / 2 ^ 30, i.h.serial % 2 ^ 30)
      let j : Invoked := { i with sent := some s.xclk, first := s.xclk, waits := false }
      let s1 := { s with sentTo := if s.sentTo.contains key then s.sentTo else s.sentTo ++ [key]
                         invoked := s.invoked.map fun e => if e = i then j else e }
      if acc = s.accId then
        let r := s1.receive (recBytes i.h.r)
        r.1.answered j (r.2.getD 4)
      else if !Config.inPod acc then s.answered i 5
      else s1.linkOut acc (recBytes i.h.r))
/-- INVOKE_ANSWER (R42, R46): the answer's sequence number names the invocation. -/
def execInvokeAnswer (data : BitVec 128) (s : State) : Out :=
  .next (
    let seq := data.toNat % 2 ^ 56
    let st := data.toNat / 2 ^ 56 % 256
    if data.toNat / 2 ^ 64 ≠ 0 ∨ st > 4 then s
    else match s.invoked.find? fun i => i.sent.isSome && i.h.r.seq == seq with
      | some i => s.answered i st
      | none => s)
/-- INVOKE_RESEND (R42): 2^20 X-die cycles without an answer. -/
def execInvokeResend (s : State) : Out :=
  .next (match s.invoked.find? fun i => match i.sent with | some t => decide (t + 2 ^ 20 ≤ s.xclk) | none => false with
    | none => s
    | some i =>
      let s1 := { s with invoked := s.invoked.map fun e => if e = i then { i with sent := some s.xclk } else e }
      s1.linkOut (i.h.acc.getD 0) (recBytes i.h.r))
/-- INVOKE_GIVE_UP (R42): 2^30 X-die cycles without an answer. -/
def execInvokeGiveUp (s : State) : Out :=
  .next (match s.invoked.find? fun i => i.sent.isSome && decide (i.first + 2 ^ 30 ≤ s.xclk) with
    | some i => s.answered i 5
    | none => s)
/-- RETIRE_WRITE (R43): a peer's retire write; one of another layout is dropped with a completion error. -/
def execRetireWrite (data : BitVec 128) (s : State) : Out :=
  .next (
    let n (o k : Nat) : Nat := leNat (((leBytes 16 data.toNat).drop o).take k)
    let src := n 0 2
    let m := n 2 1
    let f := n 3 4
    let t := n 7 4
    if src ≥ 1024 ∨ m ≥ 4 ∨ f ≥ 2 ^ 30 ∨ t ≥ 2 ^ 30 ∨ n 11 5 ≠ 0 then s.emit .linkError
    else (s.dropRetained src m f t).emit (.answer src (leBytes 4 t ++ leBytes 1 m ++ leBytes 2 0 ++ leBytes 1 0x10 ++ List.replicate 8 (0 : Byte))))
/-- RETIRE_ACK (R43): the write that the source acknowledges is no longer resent. -/
def execRetireAck (data : AckWord) (s : State) : Out :=
  .next (
    let n (o k : Nat) : Nat := leNat (((leBytes 16 data.word.toNat).drop o).take k)
    if n 7 1 ≠ 0x10 ∨ n 5 2 ≠ 0 ∨ n 8 8 ≠ 0 then s
    else match s.retireWrites.find? fun w => w.acc == data.source && w.m == n 4 1 && w.t == n 0 4 with
      | some w => { s with retireWrites := s.retireWrites.erase w }
      | none => s)
/-- RETIRE_WRITE_RESEND (R43). -/
def execRetireWriteResend (s : State) : Out :=
  .next (match s.retireWrites.find? fun w => decide (w.sent + 2 ^ 20 ≤ s.xclk) with
    | none => s
    | some w =>
      let s1 := { s with retireWrites := s.retireWrites.map fun e => if e = w then { w with sent := s.xclk } else e }
      s1.linkOut w.acc (retireBytes s.accId w.m w.f w.t))
/-- RETAINED_ENTRY_EXPIRY (R42): 2^34 cycles of its M-die. -/
def execRetainedEntryExpiry (s : State) : Out :=
  .next (match s.retained.find? fun e => decide (e.at_ + 2 ^ 34 ≤ (s.mdie e.m).clk) with
    | some e => { s with retained := s.retained.erase e }
    | none => s)

/-! ### spawn and invoke (R45 to R48) -/
/-- The 48 argument bytes s(A) to s(A+5). -/
def recArgs (x : Ctx) (f : Fields) : List Byte :=
  (List.range 6).flatMap fun i => leBytes 8 (match f.a with | .s n => (x.sreg (n.val + i)).toNat | _ => 0)
/-- The handle for d, unless nowb leaves the record's fate unreported. -/
def workFuture (s : State) (cid : Nat) (f : Fields) : State × Option Word32 :=
  if f.nowb then (s, none)
  else match s.engineFuture cid with
    | some (t, h) => (t.writeS cid f (h.setWidth 64), some h)
    | none => (s, none)
/-- Hold a record in the journal (R41): one already there stays the only one. -/
def State.hold (s : State) (h : Held) : State :=
  if s.journal.any fun j => j.serial == h.serial && j.row == h.row && j.emit == h.emit then s else { s with journal := s.journal ++ [h] }
/-- spawn and invoke: the checks in their order, then the record is held. -/
def emitBody (inv : Bool) (cid : Nat) (f : Fields) (s : State) : Res :=
  let x := s.ctx cid
  let b := s.blockOf x
  let tw := scalarOf x f false f.b
  let q := scalarOf x f false f.c
  let args := recArgs x f
  let r := workFuture s cid f
  let s1 := r.1
  let bad : Bool := if inv then bitsOf tw 15 14 != 0 || bitsOf tw 63 32 != 0 || decide (11 < bitsOf tw 13 10) || bitsOf q 63 32 != 0
    else bitsOf tw 63 16 != 0 || decide (11 < bitsOf tw 15 12)
  if x.emitted = 4096 then .done (s1.settleWork r.2 6)
  else if bad then .done (s1.settleWork r.2 4)
  else if !inv && (s.handlerNode? b.slot (bitsOf tw 11 0)).isNone then .done (s1.settleWork r.2 3)
  else
    let seq := b.serial * 2 ^ 20 + x.k * 2 ^ 12 + x.emitted
    let rec_ : Rec := if inv then { qidx := bitsOf q 31 20, qgen := bitsOf q 19 0, handler := bitsOf tw 31 16, prio := bitsOf tw 13 10, source := s.accId, seq := seq, args := args }
      else { handler := bitsOf tw 11 0, prio := bitsOf tw 15 12, spawn := true, source := s.accId, seq := seq, args := args }
    let s2 := s1.hold { task := b.task, blk := x.blk, serial := b.serial, row := x.k, emit := x.emitted, r := rec_
                        acc := if inv then some (bitsOf tw 9 0) else none, slot := b.slot, fut := r.2 }
    .done (s2.updCtx cid fun y => { y with emitted := y.emitted + 1 })
/-- The release of a record waits for the walk to its node's affinity address (R210). -/
def State.spawnHeld (s : State) (h : Held) : Bool :=
  s.itbusy && h.acc.isNone && match s.handlerNode? h.slot h.r.handler with
    | some n => s.walkWaits (s.slot h.slot).fn n.affbase
    | none => false
/-- A released record (R41, R47, R48): a spawn enters its bin or is refused, an invoke goes to the X-die, unless pacing keeps it (R43). -/
def State.releaseRec (s : State) (h : Held) : State :=
  match h.acc with
  | some acc => if acc = s.accId ∨ Config.inPod acc then { s with invoked := s.invoked ++ [{ h := h, waits := !s.paced { h := h } }] } else s.settleWork h.fut 5
  | none => match s.handlerNode? h.slot h.r.handler with
    | none => s.settleWork h.fut 3
    | some n =>
      let m := s.affHome (s.slot h.slot).fn h.r.handler n.affbase
      if 65536 ≤ (s.mdie m).classCount h.slot h.r.handler h.r.prio then s.settleWork h.fut 1
      else (s.toBin m { r := h.r, slot := h.slot, fut := h.fut }).settleWork h.fut 0

/-! ### The meanings -/
-- BEGIN MEANINGS
/-- SPAWN (R47). -/
def execSpawn (f : Fields) (s : State) : Out := issue (.spawn f) 0xE0 f (emitBody false) s
/-- INVOKE (R48). -/
def execInvoke (f : Fields) (s : State) : Out := issue (.invoke f) 0xE1 f (emitBody true) s
/-- QNEW (R49). -/
def execQnew (f : Fields) (s : State) : Out := issue (.qnew f) 0xE2 f (qnewBody) s
/-- QDEL (R50). -/
def execQdel (f : Fields) (s : State) : Out := issue (.qdel f) 0xE3 f (qdelBody) s
-- END MEANINGS
end Sys2Proof.Machine
end

