-- ==== Sys2Proof/Machine/Weir.lean ====
section
/-! DEFINITION. The Weir (R311 to R321) and how work ends (R23, R24, R34, R346, R347): the meanings of opcode 0xE4 and of
TASK_START_ACTION, RDONE_FLUSH, RDONE_FLUSH_DONE, BLOCK_RETIRE, TASK_COMPLETE, SUCCESSOR_START and REPLAY_COMPLETE. -/
namespace Sys2Proof.Machine

/-! ### Die caches at the edges -/
/-- Bytes of a line that lie in one of the regions. -/
def regionMask (rs : List Region) (l : DLine) : Word64 := byteMask fun i => rs.any fun r => r.holds (l.va + i)
/-- Bytes of a line with a forward tag, and those with one tag. -/
def DLine.tagged (l : DLine) : Word64 := byteMask fun i => (Tables.get? l.tags i).isSome
def DLine.taggedBy (l : DLine) (t : Nat × Nat) : Word64 := byteMask fun i => Tables.get? l.tags i == some t
/-- Change every line of function fn in a die's cache. -/
def State.overLines (s : State) (d fn : Nat) (f : State → Nat → DLine → State) : State :=
  ((s.cdie d).dcache.filter fun e => e.2.fn == fn).foldl (fun s e => f s e.1 e.2) s
/-- Working C-dies. -/
def State.liveDies (s : State) : List Nat := (List.range 8).filter fun d => !(s.cdie d).failed
/-- Write home, on the dies given, the bytes forwarded to a node of a replay (R314). -/
def State.flushTag (s : State) (dies : List Nat) (fn : Nat) (t : Nat × Nat) : State :=
  dies.foldl (fun s d => s.overLines d fn fun s k l => s.flushLine d k (l.taggedBy t)) s
/-- Write home every dirty byte of the regions in die d's cache (R318, R320). -/
def State.flushRegions (s : State) (d fn : Nat) (rs : List Region) : State :=
  s.overLines d fn fun s k l => s.flushLine d k (regionMask rs l)
/-- Drop the clean bytes of the regions from die d's cache (R312). -/
def State.dropClean (s : State) (d fn : Nat) (rs : List Region) : State :=
  s.overLines d fn fun s k l => s.setDline d k { l with valid := l.valid &&& (l.dirty ||| ~~~(regionMask rs l)) }
/-- Drop the untagged dirty bytes of the regions from die d's cache (R319). -/
def State.dropDirty (s : State) (d fn : Nat) (rs : List Region) : State :=
  s.overLines d fn fun s k l =>
    let m := l.dirty &&& regionMask rs l &&& ~~~l.tagged
    s.setDline d k { l with valid := l.valid &&& ~~~m, dirty := l.dirty &&& ~~~m }
/-- A node's write regions, and its read regions, that reach a die cache. -/
def Node.writeRegions (n : Node) : List Region := n.regions.filter fun r => r.isWrite && !r.isAtomic
def Node.readRegions (n : Node) : List Region := n.regions.filter fun r => r.isRead && !r.isAtomic
/-- A node's read regions, as code is fetched from them (R91). -/
def Node.codeRegions (n : Node) : List Region := n.regions.filter (·.isRead)

/-! ### The start of a task on a die (R91, R312) -/
/-- Step 1 of R312 for task t on die d: forwarded bytes of its regions on the other dies go home. -/
def State.startFlush (s : State) (t d : Nat) : State :=
  match s.task? t with
  | none => s
  | some tk =>
    let s1 := (s.liveDies.filter (· != d)).foldl (fun s e => s.overLines e tk.fn fun s k l => s.flushLine e k (regionMask tk.hdr.regions l &&& l.tagged)) s
    s1.setTask t { tk with starting := tk.starting ++ [(d, s1.peerNext)], active := true }
/-- A grid's instruction-cache lines that lie in regions of a function go (R91). -/
def State.dropCode (s : State) (fn : Nat) (rs : List Region) (g : Nat) : State :=
  if (s.grid g).icache.isEmpty then s
  else s.updGrid g fun x => { x with icache := x.icache.filter fun e => !(e.1 / 2 ^ 46 == fn && rs.any fun r =>
    decide (r.base < 64 * (e.1 % 2 ^ 46) + 64) && decide (64 * (e.1 % 2 ^ 46) < r.base + r.extent)) }
/-- Steps 2 and 3 of R312 for task t on die d. -/
def State.taskStart (s : State) (t d : Nat) : State :=
  match s.task? t with
  | none => s
  | some tk =>
    let s1 := s.dropClean d tk.fn tk.hdr.readRegions
    let s2 := ((List.range 48).map (48 * d + ·)).foldl (fun (s : State) g => s.dropCode tk.fn tk.hdr.codeRegions g) s1
    s2.setTask t { tk with started := if tk.started.contains d then tk.started else tk.started ++ [d]
                           starting := tk.starting.filter fun e => e.1 != d
                           dies := if tk.dies.contains d then tk.dies else tk.dies ++ [d], active := true }
/-- Step 1's mark of a start under way. -/
def State.startMark (s : State) (t d : Nat) : Option Nat := (s.task? t).bind fun k => (k.starting.find? fun e => e.1 == d).map (·.2)
/-- TASK_START_ACTION (R312): the Weir of die d makes task t's start; once its flush is acknowledged the task's rows there may
issue, but on a grid captured for a migration (R344). -/
def execTaskStartAction (task d : Nat) (s : State) : Out :=
  .next (
    if ¬ (s.ctxs.any fun e => e.2.held && dieOf (gridOf e.1) == d && (s.blockOf e.2).task == task) then s
    else
      let s1 := if (s.startMark task d).isNone then s.startFlush task d else s
      match s1.startMark task d with
      | none => s1
      | some m => if !s1.backTo m then s1 else (s1.taskStart task d).mapCtxs fun cid x =>
        if dieOf (gridOf cid) = d ∧ (s.blockOf x).task = task ∧ (s.blockOf x).phase = .resident ∧ !s.captured (gridOf cid) then { x with held := false } else x)

/-! ### Overlap between tasks (R316) -/
/-- Regions of a task that arbitrate: a region closed by every block, its flushes done, writes no more. -/
def Task.gone (t : Task) (j : Nat) : Bool := decide (t.total ≤ (t.closing.filter fun e => e.1 == j).length)
def Task.writes (t : Task) : List Region :=
  ((List.range t.hdr.regions.length).filter fun j => !t.gone j).filterMap fun j =>
    match t.hdr.regions[j]? with | some r => if r.isWrite && !r.isAtomic then some r else none | none => none
def Task.touches (t : Task) : List Region := t.hdr.readRegions ++ t.writes
def Region.meets (a b : Region) : Bool := decide (a.base < b.base + b.extent) && decide (b.base < a.base + a.extent)
def overlap (u t : Task) : Bool :=
  u.fn == t.fn && ((u.writes.any fun a => t.touches.any a.meets) || (t.writes.any fun a => u.touches.any a.meets))
/-- A dependence path joins two seeded tasks of one replay. -/
def State.depends (s : State) (u t : Task) : Bool :=
  match u.replay, t.replay with
  | some a, some b => a == b && (match s.replay? a with
    | some r =>
      let ns := Image.nodes r.image
      let from_ (i : Nat) := Image.reach ns ns.length (ns.getD i {}).succ.eraseDups
      (from_ u.node).contains t.node || (from_ t.node).contains u.node
    | none => false)
  | _, _ => false
/-- The order of held tasks (R316). -/
def Task.before (u t : Task) : Bool :=
  decide (u.node < t.node) || (u.node == t.node && (decide (u.slot < t.slot) || (u.slot == t.slot && decide (u.order < t.order))))
/-- Two tasks overlap and no dependence path joins them (R316). -/
def State.clash (s : State) (u t : Task) : Bool := overlap u t && !s.depends u t
/-- Tasks with blocks to place that are not active, in the order of R316. -/
def State.waitingTasks (s : State) : List (Nat × Task) :=
  sortBy (fun a b => a.2.before b.2) (s.tasks.filter fun e => !e.2.active && !e.2.finished && e.2.failed.isNone && s.blocks.any fun b => b.2.task == e.1 && b.2.phase == .ready)
/-- The tasks that R316 holds now: those that clash with an active task, and of those it has held before the ones that clash with a held
task earlier in the order. -/
def State.heldTasks (s : State) : List (Nat × Task) :=
  let act := s.tasks.filter fun e => e.2.active && !e.2.finished
  s.waitingTasks.foldl (fun acc e => if act.any (fun u => s.clash u.2 e.2) || (e.2.held && acc.any fun u => s.clash u.2 e.2) then acc ++ [e] else acc) []
/-- R316 keeps task t from being placed. -/
def State.arbitrated (s : State) (t : Nat) : Bool := s.heldTasks.any fun e => e.1 == t
/-- Note a held task; it is counted once (R321). -/
def State.noteHeld (s : State) (t : Nat) : State :=
  match s.task? t with
  | some tk => ({ s with wovlHeld := if tk.counted then s.wovlHeld else min (s.wovlHeld + 1) (2 ^ 32 - 1) }).setTask t { tk with held := true, counted := true }
  | none => s

/-! ### rdone (R320) -/
/-- The operation writes bytes of a region; of one whose index list is still to be read that is taken to be so. -/
def LeatOp.writesIn (o : LeatOp) (r : Region) : Bool :=
  o.writesGlobal && ((o.needsList && o.indices.isNone)
    || (List.range o.total).any fun t => decide (o.gAddr t < r.base + r.extent) && decide (r.base < o.gAddr t + o.us))
/-- Leat operations of a block still under way that write a region: grid and id. -/
def State.writers (s : State) (blk : Nat) (r : Region) : List (Nat × Nat) :=
  s.grids.flatMap fun e => (e.2.leat.filter fun o => o.blk == blk && o.writesIn r).map fun o => (e.1, o.id)
/-- A block has issued rdone, so it is no longer flushed and restarted (R318). -/
def State.hasRdone (s : State) (blk : Nat) : State := s.updBlock blk fun y => { y with rdone := true }
/-- rdone: the block has issued it, whatever comes of it (R318). -/
def rdoneBody (cid : Nat) (f : Fields) (s : State) : Res :=
  let x := s.ctx cid
  let b := s.blockOf x
  let a := scalarOf x f false f.a
  let reg := bitsOf a 3 0
  match (if f.nowb then some (s, none) else (s.engineFuture cid).map fun p => (p.1.writeHandle cid f.d p.2, some p.2)) with
  | none => .stay .fresh
  | some (s0, h) =>
    let s1 := s0.hasRdone x.blk
    if bitsOf a 63 4 ≠ 0 ∨ reg ≥ b.hdr.nreg ∨ !(b.hdr.regions.getD reg {}).isWrite then
      .done (match h with | some hd => s1.settle hd 3 (failValue 7 0 0) 7 | none => s1)
    else match s1.flushes.find? fun w => w.blk == x.blk && w.reg == reg with
    | some w =>
      (match h with
      | none => .done s1
      | some hd => if w.done then .done (s1.settle hd 2 1 0)
        else .done { s1 with flushes := s1.flushes.map fun e => if e = w then { w with futs := w.futs ++ [(hd, 1)] } else e })
    | none =>
      let w : Flush := { blk := x.blk, reg := reg, cid := cid, waitStores := x.stores.length, ops := s1.writers x.blk (b.hdr.regions.getD reg {})
                         futs := match h with | some hd => [(hd, 0)] | none => [] }
      .done ({ s1 with flushes := s1.flushes ++ [w] }.updBlock x.blk fun y => { y with closed := y.closed ++ [reg] })
/-- An operation is still to complete: it is in its Leat, or a saved block's image keeps it (R338). -/
def State.opLeft (s : State) (blk : Nat) (o : Nat × Nat) : Bool :=
  (s.grid o.1).leat.any (fun p => p.id == o.2) || match s.block? blk with | some b => b.imageLeat.any fun e => e.1 == o.1 && e.2.id == o.2 | none => false
/-- What a flush waits for is over (R320). -/
def State.flushReady (s : State) (w : Flush) : Bool :=
  !w.started && w.waitStores == 0 && w.ops.all fun o => !s.opLeft w.blk o
/-- RDONE_FLUSH (R320): the first flush whose waits are over begins; the bytes go home, none is forwarded. -/
def execRdoneFlush (s : State) : Out :=
  .next (match s.flushes.find? s.flushReady with
    | none => s
    | some w => match s.block? w.blk with
      | none => s
      | some b =>
        let s1 := s.flushRegions (dieOf (gridOf w.cid)) b.fn [b.hdr.regions.getD w.reg {}]
        { s1 with flushes := s1.flushes.map fun e => if e = w then { w with started := true, mark := s1.peerNext } else e })
/-- RDONE_FLUSH_DONE (R320): the first flush begun whose bytes are acknowledged at home: its futures resolve; the region may leave
the write set. -/
def execRdoneFlushDone (s : State) : Out :=
  .next (match s.flushes.find? fun w => w.started && !w.done && s.backTo w.mark with
    | none => s
    | some w =>
      let s1 := { s with flushes := s.flushes.map fun e => if e = w then { w with done := true, futs := [] } else e }
      let s2 := w.futs.foldl (fun (s : State) p => s.settle p.1 2 (BitVec.ofNat 64 p.2) 0) s1
      match s2.block? w.blk with
      | some b => s2.updTask b.task fun t => { t with closing := t.closing ++ [(w.reg, w.blk)] }
      | none => s2)

/-! ### The completion action (R313, R314) -/
/-- The C-die that takes a forwarded region, where its consumer is ready: every other predecessor of its task in the replay has completed (R314). The
die whose turn it is takes it; where that one has failed the other does (R355), and where both have, of which no rule speaks, the region is flushed
(log entry 122). -/
def State.consumerReady (s : State) (tk : Task) (c : Nat) : Option Nat :=
  match tk.replay.bind fun r => s.replay? r with
  | none => none
  | some rp =>
    let ns := Image.nodes rp.image
    let preds := (List.range ns.length).filter fun i => (ns.getD i {}).succ.contains c && i != tk.node
    if s.dsplit ≠ 0 ∧ preds.all rp.finished.contains then
      let m := s.affHome rp.fn c (ns.getD c {}).affbase
      let first := 2 * m + (s.mdie m).turn % 2
      if !(s.cdie first).failed then some first else if !(s.cdie (2 * m + ((s.mdie m).turn + 1) % 2)).failed then some (2 * m + ((s.mdie m).turn + 1) % 2) else none
    else none
/-- Forward the bytes of a mask from a line of die d to die e (R314). -/
def State.forwardBytes (s : State) (d key : Nat) (mask : Word64) (e : Nat) (tag : Nat × Nat) : State :=
  match s.dline? d key with
  | none => s
  | some l =>
    let m := l.dirty &&& mask
    if m = 0 then s
    else
      let s1 := s.setDline d key { l with dirty := l.dirty &&& ~~~m, tags := l.tags.filter fun t => !m.getLsbD t.1 }
      (runsOf m).foldl (fun (s : State) r => s.writeCached e l.fn l.va l.kind l.target r.1 ((l.bytes.drop r.1).take r.2) (some tag)) s1
/-- The completion action of task t on die d: each dirty byte of its write regions is forwarded or flushed (R18, R313). -/
def State.completeDie (s : State) (tk : Task) (d : Nat) : State :=
  let own : Nat × Nat := (tk.node, tk.replay.getD 0)
  let ws := tk.hdr.writeRegions
  s.overLines d tk.fn fun s k l =>
    let s1 := if tk.replay.isSome then s.flushLine d k (l.taggedBy own) else s
    let free := regionMask ws l &&& ~~~(l.tagged &&& ~~~(l.taggedBy own))
    let r := (ws.filter (·.isForward)).foldl (fun (p : State × Word64) w =>
      let m := regionMask [w] l &&& p.2
      match s.consumerReady tk w.consumer with
      | some e => (p.1.forwardBytes d k m e (w.consumer, tk.replay.getD 0), p.2 &&& ~~~m)
      | none => (p.1.flushLine d k m, p.2 &&& ~~~m)) (s1, free)
    r.1.flushLine d k r.2
/-- The completion action on every die that ran a block of the task, and the home-going of what was forwarded to it; what goes to a peer
is awaited (R313). -/
def State.weirComplete (s : State) (t : Nat) : State :=
  match s.task? t with
  | none => s
  | some tk =>
    let s1 := if tk.replay.isSome then s.flushTag s.liveDies tk.fn (tk.node, tk.replay.getD 0) else s
    let s2 := (tk.dies.filter fun d => !(s.cdie d).failed).foldl (fun s d => s.completeDie tk d) s1
    s2.updTask t fun x => { x with finishing := some s2.peerNext }
/-- The failure or restart action (R319). -/
def State.weirDiscard (s : State) (t : Nat) : State :=
  match s.task? t with
  | none => s
  | some tk =>
    let s1 := if tk.replay.isSome then s.flushTag s.liveDies tk.fn (tk.node, tk.replay.getD 0) else s
    s1.liveDies.foldl (fun s d => s.dropDirty d tk.fn tk.hdr.writeRegions) s1

/-! ### Retirement of a block (R329, R346) -/
/-- Buckets that a context holds: granted, of its results, its loop and its bank operations (R114, R115). -/
def Ctx.heldBuckets (x : Ctx) : Nat :=
  x.granted + (x.inflight.map (·.buckets)).sum + (match x.loop with | some l => l.held | none => 0) + (x.bankOps.map fun o => o.2.2.2).sum
/-- A context leaves its slot: buckets, watch, mask, results, and what the physical row keeps of it; a loop that can get no further goes
with it (log entry 63). -/
def State.vacate (s : State) (cid : Nat) : State :=
  let sr := s.returnBuckets (gridOf cid) (s.ctx cid).heldBuckets
  let s0 := match (sr.ctx cid).loop.bind (·.fut) with | some h => sr.settle h 4 0 9 | none => sr
  let s1 := (s0.withdrawWatch cid).releaseBanks cid
  let p := rowOf cid
  let s2 := if (s1.prow p).baton = some (planeOf cid) then s1.passBaton p false else s1
  let s3 := s2.updRow p fun r =>
    { r with valid := if r.lastIssued = some (planeOf cid) then 0 else r.valid
             chain := match r.chain with | some (sl, _) => if sl = planeOf cid then none else r.chain | none => none
             buf := match r.buf with | some b => if b.slot = planeOf cid then none else some b | none => none
             sfuQueue := r.sfuQueue.filter fun e => e.1 != cid }
  { s3 with ctxs := Tables.erase s3.ctxs cid }
/-- A block's contexts. -/
def State.ctxsOf (s : State) (b : Nat) : List (Nat × Ctx) := s.ctxs.filter fun e => e.2.blk == b
/-- The block's Leat operations. -/
def State.leatOf (s : State) (b : Nat) : Bool := s.grids.any fun e => e.2.leat.any fun o => o.blk == b
/-- A fill of a grid's slot goes on: its operation has sent beats, or its block is not being stopped. -/
def State.fillGoes (s : State) (g slot : Nat) : Bool :=
  (s.grid g).leat.any fun o => (match o.kind with | .fill n _ _ => n == slot | _ => false) && (o.nextBeat != 0 || !o.stuck s)
/-- A loop of a block whose rows have stopped can still come to its next step: at the top its slot is ready or being filled, elsewhere the
row above has an entry for it; and it pushes nothing, or there is room. -/
def State.loopMay (s : State) (cid : Nat) (x : Ctx) (l : Loop) : Bool :=
  let slot := (s.tile (gridOf cid) (bSlot l)).state
  l.doneAt.isSome ||
    ((if l.top then slot == 2 || (slot == 1 && s.fillGoes (gridOf cid) (bSlot l))
      else match s.above x with | some a => (s.ctx a).port.full || !(s.ctx a).port.link.isEmpty | none => false)
    && (l.word.getLsbD 2 || s.pushReady cid || match (s.blockOf x).rows[x.k + 1]? with
      | some below => gridOf below != gridOf cid && decide (x.port.link.length < (handoff cid below).2)
      | none => false))
/-- No loop of the block is in flight; of a stopped block, none that can still step: its loops complete as far as they can (R329, R337). -/
def State.loopsOver (s : State) (b : Nat) (stopped : Bool) : Bool :=
  (s.ctxsOf b).all fun e => match e.2.loop with | none => true | some l => stopped && !s.loopMay e.1 e.2 l
/-- Every condition of R346; an aborted block waits for what its rows still have in flight (R329). -/
def State.mayRetire (s : State) (b : Nat) (x : Block) : Bool :=
  (match x.phase with | .resident | .draining _ | .stopping _ | .aborting => true | _ => false)
    && !s.leatOf b && s.loopsOver b (x.phase == .aborting)
    && (s.ctxsOf b).all fun e => e.2.done && e.2.bankOps.isEmpty && e.2.banks == 0 && e.2.inflight.isEmpty && e.2.stores.isEmpty
/-- A block's slots go unowned and empty (R242). -/
def Grid.disown (g : Grid) (b : Nat) : Grid :=
  let mine := (g.tiles.filter fun e => e.2.owner == some b).map (·.1)
  { g with tiles := g.tiles.map fun e => if e.2.owner = some b then (e.1, { e.2 with state := 0, owner := none, gen := (e.2.gen + 1) % 65536 }) else e
           autoRel := g.autoRel.filter fun n => !mine.contains n.1 }
/-- Free the block's resources on its grids: contexts, slots, spans (R346). -/
def State.releaseBlock (s : State) (b : Nat) : State :=
  let s1 := (s.ctxsOf b).foldl (fun (s : State) e => s.vacate e.1) s
  let s2 : State := { s1 with grids := s1.grids.map fun (e : Nat × Grid) => (e.1, e.2.disown b) }
  s2.updBlock b fun x => { x with spans := [], rows := [] }
/-- All blocks of the task have retired and its completion action has not begun (R313). -/
def Task.owesAction (t : Task) : Bool := t.failed.isNone && !t.finished && t.finishing.isNone && decide (t.total ≤ t.retired)
/-- The completion action waits for the walk to a consumer's affinity address, which a rewrite of the interleave table holds (R210, R314). -/
def State.actionHeld (s : State) (t : Task) : Bool :=
  s.itbusy && s.dsplit != 0 && match t.replay.bind fun r => s.replay? r with
    | some rp => t.hdr.writeRegions.any fun w => w.isForward && s.walkWaits rp.fn (Image.node rp.image w.consumer).affbase
    | none => false
/-- The block retires; the task's last retirement begins the completion action (R347). -/
def State.retireBlock (s : State) (b : Nat) : State :=
  match s.block? b with
  | none => s
  | some x =>
    let s1 := (s.releaseBlock b).answerThieves b
    let s2 := (s1.updBlock b fun y => { y with phase := .retired, hasRange := false, lo := 0, hi := 0, image := none }).freeOwned b
    let s3 := s2.updTask x.task fun t => { t with retired := t.retired + 1 }
    match s3.task? x.task with
    | some t => if t.owesAction && !s3.actionHeld t then s3.weirComplete x.task else s3
    | none => s3
/-- The first block that retires now. -/
def State.dueRetire (s : State) : Option Nat := (s.blocks.find? fun e => s.mayRetire e.1 e.2).map (·.1)
/-- BLOCK_RETIRE (R346). -/
def execBlockRetire (s : State) : Out := .next (match s.dueRetire with | some b => s.retireBlock b | none => s)

/-! ### The end of a task and of a replay (R347) -/
/-- Records of a failed task that are not blocks yet go (R329). -/
def MDie.dropRecs (x : MDie) (replay node : Nat) : MDie :=
  let mine (r : BinRec) : Bool := r.replay == some replay && r.r.handler == node
  { x with inserts := x.inserts.filter fun r => !mine r
           bins := (x.bins.map fun b => { b with recs := b.recs.filter fun r => !mine r }).filter fun b => !b.recs.isEmpty }
/-- Remove a task's blocks that are gone, and its flushes. -/
def State.forgetBlocks (s : State) (t : Nat) : State :=
  let mine := (s.blocks.filter fun e => e.2.task == t).map (·.1)
  { s with blocks := s.blocks.filter fun e => e.2.task != t, flushes := s.flushes.filter fun w => !(mine.contains w.blk) }
/-- A task's completion action is done: every byte that it flushed is acknowledged at home (R313). -/
def State.actionDone (s : State) (tk : Task) : Bool := !tk.finished && match tk.finishing with | some m => s.backTo m | none => false
/-- A failed task none of whose blocks is left. -/
def State.failedOut (s : State) (t : Nat) (tk : Task) : Bool :=
  tk.failed.isSome && !tk.finished && !(s.blocks.any fun e => e.2.task == t && e.2.phase != .retired && e.2.phase != .ready)
/-- Records released from the journal in sequence order (R41). -/
def State.releaseTask (s : State) (t : Nat) : State :=
  let mine := sortBy (fun (x y : Held) => decide (x.r.seq ≤ y.r.seq)) (s.journal.filter fun h => h.task == t)
  mine.foldl (fun s h => s.releaseRec h) { s with journal := s.journal.filter fun h => h.task != t }
/-- A task is over: its blocks are forgotten, and a handler task with it; a completion future with no successor to start is
freed (R280). -/
def State.endTask (s : State) (t : Nat) (tk : Task) : State :=
  let s1 := (s.forgetBlocks t).updTask t fun x => { x with finished := true, active := false, finishing := none }
  if tk.replay.isNone then
    let s2 := match tk.fut with | some h => s1.freeFuture h | none => s1
    { s2 with tasks := Tables.erase s2.tasks t }
  else if tk.hdr.succ.isEmpty then (match tk.fut with | some h => s1.freeFuture h | none => s1)
  else s1
/-- TASK_COMPLETE has something to do for the task; what a rewrite of the interleave table holds back waits (R210). -/
def State.taskDue (s : State) (t : Nat) (tk : Task) : Bool :=
  (s.actionDone tk && !(s.journal.any fun h => h.task == t && s.spawnHeld h)) || s.failedOut t tk || (tk.owesAction && !s.actionHeld tk)
/-- TASK_COMPLETE (R347 steps 3 and 4): the first task whose completion action is done resolves its future and releases its
records in one cycle; a failed task's failure action is made once its last block is gone (R319, R329). A task that owes its
action begins it. -/
def execTaskComplete (s : State) : Out :=
  .next (match s.tasks.find? fun e => s.taskDue e.1 e.2 with
    | none => s
    | some (t, tk) =>
      if tk.owesAction then s.weirComplete t
      else if tk.failed.isSome then
        let s1 := match tk.replay with
          | some r => (List.range 4).foldl (fun (s : State) m => s.updMdie m fun x => x.dropRecs r tk.node) s
          | none => s
        let ready := (s1.blocks.filter fun e => e.2.task == t && e.2.phase == .ready).map (·.1)
        let s2 := (List.range 4).foldl (fun (s : State) m => s.updMdie m fun x => { x with ready := x.ready.filter fun b => !ready.contains b }) s1
        (s2.weirDiscard t).endTask t tk
      else
        let s1 := match tk.fut with | some h => s.settle h 2 0 0 | none => s
        let s2 := s1.releaseTask t
        let s3 := match tk.replay with | some r => s2.updReplay r fun x => { x with finished := x.finished ++ [tk.node] } | none => s2
        s3.endTask t tk)
/-- Predecessors of a node. -/
def predsOf (ns : List Node) (k : Nat) : List Nat := (List.range ns.length).filter fun i => (ns.getD i {}).succ.contains k
/-- The nodes whose turn has come (R12, R23), by replay; none after a task of the replay has failed (R34), and one whose records have to wait for
a rewrite of the interleave table waits with them (R210). -/
def State.dueNodes (s : State) : List (Nat × Nat × Node) :=
  s.replays.flatMap fun e =>
    if e.2.ended || e.2.failed.isSome then []
    else
      let ns := Image.nodes e.2.image
      ((List.range ns.length).filter fun k => !(ns.getD k {}).handler && !e.2.started.contains k && (predsOf ns k).all e.2.finished.contains
        && !s.seedsHeld e.2.fn (ns.getD k {})).map
        fun k => (e.1, k, ns.getD k {})
/-- Completion futures all of whose successors have started are freed (R280). -/
def State.freeTaskFutures (s : State) (r : Nat) : State :=
  match s.replay? r with
  | none => s
  | some rp =>
    let due := s.tasks.filter fun e => e.2.replay == some r && e.2.finished && e.2.hdr.succ.all rp.started.contains
    due.foldl (fun (s : State) e => match e.2.fut with
      | some h => (s.freeFuture h).updTask e.1 fun t => { t with fut := none }
      | none => s) s
/-- A node starts: it places its records; a join completes (R12). -/
def State.startDue (s : State) (e : Nat × Nat × Node) : State :=
  let s1 := s.startNode e.1 e.2.1
  let s2 := if e.2.2.seedcount = 0 then s1.updReplay e.1 fun x => { x with finished := x.finished ++ [e.2.1] } else s1
  s2.freeTaskFutures e.1
/-- SUCCESSOR_START (R23): every node whose predecessors' tasks have completed by the last cycle starts in this one. -/
def execSuccessorStart (s : State) : Out := .next (s.dueNodes.foldl (fun s e => s.startDue e) s)
/-- The replay is over: all its tasks have completed, or one has failed and those started have ended (R23, R34). -/
def State.replayOver (s : State) (r : Nat) (rp : Replay) : Bool :=
  let ns := Image.nodes rp.image
  !rp.ended && (match rp.failed with
    | none => (List.range ns.length).all fun k => (ns.getD k {}).handler || rp.finished.contains k
    | some _ => !(s.tasks.any fun e => e.2.replay == some r && !e.2.finished))
/-- The completion word (R33). -/
def completionWord (status detail slot kick : Nat) : Nat := status * 2 ^ 56 + detail % 256 * 2 ^ 48 + slot % 4096 * 2 ^ 32 + kick % 2 ^ 32
/-- Write a completion word and raise the MSI-X vector as an image asks (R10, R34). -/
def State.reportReplay (s : State) (fn : Nat) (image : Mem) (word : Option Nat) : State :=
  let s1 := match word with
    | some w => if Image.compaddr image = 0 then s else s.emit (.hostWrite (Image.compaddr image) (leBytes 8 w))
    | none => s
  if bitAt (Image.gflags image) 0 then s1.emit (.msix fn (Image.msixvec image)) else s1
/-- What is still held of the bytes forwarded in a replay goes home (R34). -/
def State.replayFlush (s : State) (r : Nat) (rp : Replay) : State :=
  let t := (List.range (Image.ncount rp.image)).foldl (fun (s : State) k => s.flushTag s.liveDies rp.fn (k, r)) s
  t.updReplay r fun x => { x with mark := some t.peerNext }
/-- REPLAY_COMPLETE has something to do: a replay is over, and its flush is to begin or has been acknowledged. -/
def State.replayDue (s : State) (r : Nat) (rp : Replay) : Bool :=
  s.replayOver r rp && match rp.mark with | none => true | some m => s.backTo m
/-- REPLAY_COMPLETE (R23, R34): what was forwarded is at home, then the word, then MSI-X. -/
def execReplayComplete (s : State) : Out :=
  .next (match s.replays.find? fun e => s.replayDue e.1 e.2 with
    | none => s
    | some (r, rp) =>
      let s1 := if rp.mark.isNone then s.replayFlush r rp else s
      if !s1.backTo (((s1.replay? r).bind (·.mark)).getD 0) then s1
      else
      let st := rp.failed.getD (0, 0)
      let word := completionWord st.1 (if st.1 = 5 then st.2 else 0) (rp.slot - (s.func rp.fn).slotBase) rp.kick
      let s2 := s1.reportReplay rp.fn rp.image (some word)
      let mine := s2.tasks.filter fun e => e.2.replay == some r
      let s3 := mine.foldl (fun (s : State) e => match e.2.fut with | some h => s.freeFuture h | none => s) s2
      { s3 with tasks := s3.tasks.filter fun e => e.2.replay != some r, replays := Tables.erase s3.replays r })

/-! ### The meanings -/
-- BEGIN MEANINGS
/-- RDONE (R320). -/
def execRdone (f : Fields) (s : State) : Out := issue (.rdone f) 0xE4 f (rdoneBody) s
-- END MEANINGS
end Sys2Proof.Machine
end

