-- ==== Sys2Proof/Machine/Place.lean ====
section
/-! DEFINITION. Placement (R54 to R64): the ready list and its aging, fitting a block into a cluster, what a row holds at its
first issue, anchoring, stealing and gating: the meanings of DISPATCH_OFFER, ANCHOR_BLOCK, STEAL_REQUEST, STEAL_ANSWER,
GRID_GATE, WAKE_WARMUP_END and DIE_GATE. -/
namespace Sys2Proof.Machine

/-! ### Free resources -/
/-- Saved blocks whose reservations stand against a block (R338). -/
def State.reservers (s : State) (b : Nat) : List Block :=
  (s.blocks.filter fun e => e.2.phase == .saved && e.1 != b && e.2.savedFor != some b).map (·.2)
/-- Context slots of a cluster that block b cannot have. -/
def State.takenSlots (s : State) (c b : Nat) : List Nat :=
  ((s.ctxs.map (·.1)) ++ ((s.reservers b).flatMap (·.rows))).filter fun cid => clusterOf (gridOf cid) == c
/-- The grid is the target of a migration under way (R342). -/
def State.isTarget (s : State) (g : Nat) : Bool := s.grids.any fun e => match e.2.migration with | some m => m.target == some g | none => false
/-- A saved block may come back to the grid: it is powered (R353), neither a migration's target nor captured for one (R66, R344), and its die
works. -/
def State.returnable (s : State) (g : Nat) : Bool := !s.recovery && !(s.cdie (dieOf g)).failed && !s.isTarget g && !s.captured g
/-- The placer may use the grid: it is powered (R353), not retired, neither a migration's target nor captured for one (R66, R344), and its die works. -/
def State.usable (s : State) (g : Nat) : Bool := s.returnable g && !(s.grid g).retired
/-- Spans held on a grid against block b. -/
def State.spansOn (s : State) (g b : Nat) : List Span :=
  ((s.blocks.filter fun e => e.1 != b && e.2.phase != .saved).flatMap fun e => e.2.spans.filter fun sp => sp.g == g)
    ++ (s.reservers b).flatMap fun x => x.spans.filter fun sp => sp.g == g
/-- The lowest 64-byte aligned free span of a size (R60). -/
def lowestSpan (held : List Span) (need : Nat) : Option Nat :=
  let starts := sortBy (fun x y => decide (x ≤ y)) (0 :: held.map (·.lim))
  starts.find? fun a => decide (a + need ≤ 0x200000) && held.all fun h => decide (a + need ≤ h.base) || decide (h.lim ≤ a)
/-- Unowned operand slots of a grid that block b may claim. -/
def State.freeSlots (s : State) (g b : Nat) : List Nat :=
  let kept := (s.reservers b).flatMap fun x => x.imageTiles.filterMap fun e => if e.1 = g then some e.2.1 else none
  (List.range 32).filter fun n => (s.tile g n).owner.isNone && !kept.contains n
/-- FreeReserve and FreeShared of R60. -/
def State.freeReserve (s : State) (c : Nat) : Nat :=
  let held := s.blocks.foldl (fun n e => if e.2.cluster == c && (match e.2.phase with | .ready | .retired => false | _ => true) then n + e.2.reserve else n) 0
  let late := ((s.cluster c).liveFutures.filter fun e => e.kind == 1 && !e.shared && (match e.owner with
    | some b => (match s.block? b with | some x => x.phase == .retired | none => true) | none => false)).length
  12288 - held - late
def State.freeShared (s : State) (c : Nat) : Nat := 4096 - (s.cluster c).sharedUsed

/-! ### Bands (R59, R60) -/
/-- Where a band lies: its plane, its grids in chain order, its first row. -/
structure BandAt where
  plane : Nat
  grids : List Nat
  first : Nat
  deriving DecidableEq, Repr
/-- n rows from a first row of a grid's plane are free. -/
def rowsFree (taken : List Nat) (g plane first n : Nat) : Bool := (List.range n).all fun i => !taken.contains (cidAt g (first + i) plane)
/-- Half of the die (R52). -/
def halfOf (g : Nat) : Nat := posOf g / 12
/-- The best option of a band of at most 32 rows: new grids, plane, grid order, first row. -/
def shortBand (order used taken : List Nat) (r : Nat) : Option BandAt :=
  [true, false].findSome? fun old => (List.range 4).findSome? fun p => (order.filter fun g => used.contains g == old).findSome? fun g =>
    ((List.range (33 - r)).find? fun i => rowsFree taken g p i r).map fun i => { plane := p, grids := [g], first := i }
/-- Grids of a class: half and whether already used. -/
def countOf (l used : List Nat) (half : Nat) (old : Bool) : Nat := (l.filter fun g => halfOf g == half && used.contains g == old).length
/-- x grids, exactly y of them new, can be had from counts of old and new ones. -/
def canTake (old new x y : Nat) : Bool := decide (y ≤ x) && decide (y ≤ new) && decide (x - y ≤ old)
/-- Whether m more grids of a chain can be chosen, the last from full or part, with exactly st stitch hops and nw new grids. -/
def canFinish (full part used : List Nat) (prev : Option Nat) (m st nw : Nat) : Bool :=
  if m = 0 then st == 0 && nw == 0
  else
    let cf := countOf full used
    let cp := countOf part used
    [0, 1].any fun h =>
      let sw := match prev with | some q => if q = h then 0 else 1 | none => 0
      decide (sw ≤ st) && (
        let st2 := st - sw
        let runsH := (st2 + 2) / 2
        let runsO := (st2 + 1) / 2
        let lastH := if st2 % 2 = 0 then h else 1 - h
        (List.range (m + 1)).any fun nh =>
          let no := m - nh
          decide (runsH ≤ nh) && decide (runsO ≤ no) && (runsO != 0 || no == 0) &&
          [(0, false), (1, false), (1, true)].any fun lc =>
            -- lc: the last one from part (1) or not, and whether it is new
            let fromPart := lc.1 == 1
            let newLast := if lc.2 then 1 else 0
            (!fromPart || decide (0 < cp lastH (!lc.2))) && decide (newLast ≤ nw) && (
              let dh := if fromPart && lastH == h then 1 else 0
              let do_ := if fromPart && lastH != h then 1 else 0
              (List.range (nw - newLast + 1)).any fun y =>
                canTake (cf h true) (cf h false) (nh - dh) y && canTake (cf (1 - h) true) (cf (1 - h) false) (no - do_) (nw - newLast - y)))
/-- The lexicographically first chain of m more grids. -/
def chooseChain (order full last used : List Nat) : Nat → Option Nat → Nat → Nat → List Nat → Option (List Nat)
  | 0, _, _, _, acc => some acc
  | m + 1, prev, st, nw, acc =>
    let pool := if m = 0 then last else full
    let pick := (order.filter fun g => pool.contains g && !acc.contains g).find? fun g =>
      let sw := match prev with | some q => if q = halfOf g then 0 else 1 | none => 0
      let n := if used.contains g then 0 else 1
      let left := acc ++ [g]
      let full2 := full.filter fun x => !left.contains x
      let part2 := last.filter fun x => !left.contains x && !full.contains x
      decide (sw ≤ st) && decide (n ≤ nw) && canFinish full2 part2 used (some (halfOf g)) m (st - sw) (nw - n)
    match pick with
    | none => none
    | some g => chooseChain order full last used m (some (halfOf g))
        (st - (match prev with | some q => if q = halfOf g then 0 else 1 | none => 0)) (nw - (if used.contains g then 0 else 1)) (acc ++ [g])
/-- The best option of a band of more than 32 rows. -/
def longBand (order used taken : List Nat) (r : Nat) : Option BandAt :=
  let k := (r + 31) / 32
  (List.range (k + 1)).findSome? fun nw => (List.range k).findSome? fun st => (List.range 4).findSome? fun p =>
    let full := order.filter fun g => rowsFree taken g p 0 32
    let last := order.filter fun g => rowsFree taken g p 0 (r - 32 * (k - 1))
    (chooseChain order full last used k none st nw []).map fun gs => { plane := p, grids := gs, first := 0 }
def bandOption (order used taken : List Nat) (r : Nat) : Option BandAt := if r ≤ 32 then shortBand order used taken r else longBand order used taken r
/-- The context slots of a band, by rowid. -/
def BandAt.slots (b : BandAt) (r : Nat) : List Nat := (List.range r).map fun i => cidAt (b.grids.getD (i / 32) 0) (b.first + i % 32) b.plane
/-- Place band after band (R60): the bands, at most 8 grids. -/
def fitBands (order : List Nat) (r : Nat) : Nat → List Nat → List Nat → List BandAt → Option (List BandAt × List Nat)
  | 0, used, _, acc => some (acc, used)
  | n + 1, used, taken, acc => match bandOption order used taken r with
    | none => none
    | some b =>
      let used2 := used ++ b.grids.filter fun g => !used.contains g
      if 8 < used2.length then none else fitBands order r n used2 (b.slots r ++ taken) (acc ++ [b])
/-- A placement: the contexts in block-wide order and the spans. -/
structure Placement where
  rows : List Nat
  spans : List Span
  deriving DecidableEq, Repr
/-- Fit of R60 for a header in cluster c, b being the block's number and first whether it is its task's first. -/
def State.fit (s : State) (b : Nat) (hdr : Node) (first : Bool) (c : Nat) : Option Placement :=
  let grids := (List.range 24).map fun i => 24 * c + i
  let ok := grids.filter s.usable
  let order := (ok.filter fun g => !(s.grid g).gated) ++ ok.filter fun g => (s.grid g).gated
  match fitBands order hdr.rows hdr.bands [] (s.takenSlots c b) [] with
  | none => none
  | some (bs, used) =>
    let rows := bs.flatMap fun x => x.slots hdr.rows
    let spans := used.map fun g =>
      let need := 64 * (hdr.ccount + 1) + hdr.side + hdr.spill * (rows.filter fun cid => gridOf cid == g).length
      match lowestSpan (s.spansOn g b) need with
      | some a => if (s.freeSlots g b).length < hdr.slots then none else some (Span.mk g a (a + need))
      | none => none
    if spans.any (·.isNone) ∨ s.freeReserve c < 4 * hdr.total ∨ (first ∧ (s.freeShared c = 0 ∨ (s.cluster c).freeEntry = none)) then none
    else some { rows := rows, spans := spans.filterMap id }
/-- No other block of the block's task is resident or has retired (R60). -/
def State.firstOfTask (s : State) (b : Nat) (x : Block) : Bool :=
  !(s.blocks.any fun e => e.1 != b && e.2.task == x.task && (match e.2.phase with | .ready | .saved => false | _ => true))
/-- The task's completion future is still to be allocated (R280). -/
def State.owesFuture (s : State) (x : Block) : Bool := match s.task? x.task with | some t => t.fut.isNone | none => false
/-- Free row contexts of a cluster: those with no resident context (R60). -/
def State.freeContexts (s : State) (c : Nat) : Nat := 3072 - (s.ctxs.filter fun e => clusterOf (gridOf e.1) == c).length

/-! ### The claim (R60, R62 to R64) -/
/-- Wake a gated grid: caches and bank state empty, 2,048 cycles at class 2 (R64). -/
def State.wakeGrid (s : State) (g : Nat) : State :=
  let x := s.grid g
  if !x.gated then s.updGrid g fun x => { x with idle := 0 }
  else
    let y := { x with gated := false, idle := 0, warm := 2049, rcache := [], icache := [], cls := 2, change := none, lowHold := false
                      winStart := x.clk, winReady := 0 }
    { s.setGrid g y with bankMem := s.bankMem.clear (1024 * 32 * g) 32768 }
/-- Clear a span and lay down the record area; the grid becomes last writer of every word, every other loses them (R202). -/
def State.claimSpan (s : State) (sp : Span) (area : List Byte) : State :=
  let a := 2 ^ 21 * sp.g + sp.base
  let n := sp.lim - sp.base
  let mine (k : Nat) : Bool := decide (a / 64 ≤ k) && decide (k < (a + n) / 64)
  let s1 : State := { s with
    side := (s.side.clear a n).writeN a area
    sideWriter := s.sideWriter.filter fun e => !(decide (a ≤ 4 * e.1) && decide (4 * e.1 < a + n))
    grids := s.grids.map fun (e : Nat × Grid) => if e.1 = sp.g then e else (e.1, { e.2 with rcache := e.2.rcache.map fun l => if mine l.1 then (l.1, { l.2 with owned := 0 }) else l }) }
  s1
/-- A row context at its first issue (R62). -/
def newCtx (b : Nat) (hdr : Node) (rows : List Nat) (spans : List Span) (k : Nat) (notBefore : Nat) (held : Bool) : Ctx :=
  let cid := rows.getD k 0
  let g := gridOf cid
  let sp := (spans.find? fun x => x.g == g).getD ⟨g, 0, 0⟩
  let nth := ((rows.take k).filter fun c => gridOf c == g).length
  let top := sp.base + 64 * (hdr.ccount + 1) + hdr.side + hdr.spill * (nth + 1)
  let x : Ctx := { blk := b, k := k, rowid := k % max 1 hdr.rows, bandid := k / max 1 hdr.rows, pc := BitVec.ofNat 64 hdr.entry
                   trapvec := BitVec.ofNat 64 hdr.trapv, emuvec := BitVec.ofNat 64 hdr.emuv, notBefore := notBefore, held := held }
  x.setS 159 (BitVec.ofNat 64 top)
/-- Claim a placement for a block that was never placed, or is placed afresh; its task's start on the die begins at once (R312, R316). -/
def State.place (s : State) (b : Nat) (c : Nat) (p : Placement) : State :=
  match s.block? b with
  | none => s
  | some x =>
    let gs := p.spans.map (·.g)
    let s0 := if s.owesFuture x then (match s.allocFuture c 2 none 0 with
      | some (t, h) => t.updTask x.task fun k => { k with fut := some h }
      | none => s) else s
    let s1 := gs.foldl (fun (s : State) g => s.wakeGrid g) (s0.updCdie (c / 2) fun d => { d with gated := false, placedNow := true })
    let area := recordArea x
    let s2 := p.spans.foldl (fun (s : State) sp => s.claimSpan sp area) s1
    let s3 := gs.foldl (fun (s : State) g => ((s.freeSlots g b).take x.hdr.slots).foldl (fun (s : State) n =>
      let t := s.tile g n
      s.setTile g n { t with state := 0, owner := some b, gen := (t.gen + 1) % 65536 }) s) s2
    let held := !((s3.taskOf x).started.contains (c / 2))
    let fu := s3.func x.fn
    let s4 := (List.range p.rows.length).foldl (fun (s : State) k =>
      let cid := p.rows.getD k 0
      let gr := s.grid (gridOf cid)
      (s.setCtx cid (newCtx b x.hdr p.rows p.spans k (gr.clk + 1 + gr.warm) held)).updRow (rowOf cid) fun r => { r with valid := 0 })
      (gs.foldl (fun (s : State) g => s.dropCode x.fn x.hdr.codeRegions g) s3)
    let s5 := s4.setBlock b { x with phase := .resident, passedFrom := none, cluster := c, spans := p.spans, rows := p.rows, barriers := [], lo := 0, hi := 0, hasRange := false,
                                     scrbase := 0x10000000 + 65536 * fu.scrBase, scrlim := 0x10000000 + 65536 * (fu.scrBase + fu.scrCount) }
    if held then { s5 with agenda := .event (.taskStartAction x.task (c / 2)) :: s5.agenda } else s5

/-! ### Restoring a saved block (R339) -/
/-- The Leat of a grid has room for the operations that a block image brings back to it (R227). -/
def State.leatRoom (s : State) (x : Block) (g : Nat) : Bool :=
  decide ((s.grid g).leat.length + (x.imageLeat.filter fun e => e.1 == g).length ≤ 64)
/-- A saved block goes back where it came from when that is free, of resident blocks and of what other saved blocks keep reserved (R338), and its
grids' Leats have room; also where a grid of it has retired from placement since (log entry 96). -/
def State.restorable (s : State) (b : Nat) (x : Block) : Bool :=
  x.rows.all (fun cid => !(s.takenSlots x.cluster b).contains cid) && x.spans.all (fun sp => s.leatRoom x sp.g) && x.spans.all (fun sp => (s.spansOn sp.g b).all fun h => decide (sp.lim ≤ h.base) || decide (h.lim ≤ sp.base))
    && x.imageTiles.all (fun e => (s.freeSlots e.1 b).contains e.2.1) && (x.rows.zip (x.image.getD [])).all (fun e => !(s.ctxs.any fun c => gridOf c.1 == gridOf e.1 && c.2.banks &&& e.2.banks != 0))
    && x.spans.all fun sp => s.returnable sp.g
/-- A loop's price under a cadence (R119). -/
def loopPrice (mcad : Nat) : Nat := (16 + mcad - 1) / mcad
/-- A restored loop (R339): it resumes at its position once it has its price again. -/
def Loop.restored (l : Loop) (mcad clk dieClk : Nat) : Loop :=
  { l with shed := true, halted := false, held := 0, waited := 0, lastStart := none, issued := clk, price := loopPrice mcad, request := some { price := loopPrice mcad, cycle := dieClk } }
/-- A number of no context slot: of a release whose loop is over. -/
def noContext : Nat := 128 * 384
/-- Bring a block image back (R339): spans, slots with new generations, bank state, contexts; watches are armed again, but on a line that cannot be
read any more (R352, log entry 117), with one wake of reason 3; parked contexts look again; loops ask for their price; banks are retaken. -/
def State.restore (s : State) (b : Nat) (x : Block) : State :=
  let s1 := x.spans.foldl (fun (s : State) sp => s.wakeGrid sp.g) (s.updCdie (x.cluster / 2) fun d => { d with gated := false, placedNow := true })
  let s2 := (x.spans.zip x.imageMem).foldl (fun (s : State) e =>
    let t := s.claimSpan e.1 []
    { t with side := t.side.paste (2 ^ 21 * e.1.g + e.1.base) (e.1.lim - e.1.base) e.2.2 }) s1
  let s3 := x.imageTiles.foldl (fun (s : State) e =>
    let t := s.tile e.1 e.2.1
    let u := s.setTile e.1 e.2.1 { e.2.2.1 with owner := some b, gen := (t.gen + 1) % 65536 }
    { u with slotMem := u.slotMem.paste (slotKey e.1 e.2.1) 17408 e.2.2.2 }) s2
  let s4 := x.imageBanks.foldl (fun (s : State) e => { s with bankMem := s.bankMem.paste (bankKey e.1 e.2.1) 768 e.2.2 }) s3
  let held := !((s4.taskOf x).started.contains (x.cluster / 2))
  let s5 := (x.rows.zip (x.image.getD [])).foldl (fun (s : State) e =>
    let gr := s.grid (gridOf e.1)
    let y := e.2
    let clkNow := (s.cdie (dieOf (gridOf e.1))).clk
    let y2 : Ctx := { y with parked := none, held := held, notBefore := gr.clk + 1 + gr.warm, watch := none, yieldedUntil := none
                             loop := y.loop.map fun l => l.restored gr.cadence gr.clk clkNow
                             stage := match y.stage with | .waitingSince _ past => .waitingSince gr.clk past | st => st
                             wake := if y.watch.isSome then mergeWake y.wake 3 else y.wake }
    let u := (s.setCtx e.1 y2).updRow (rowOf e.1) fun r => { r with valid := 0, buf := none }
    match y.watch with | some w => if w.space.isNone && u.memBad (64 * w.line) then u else u.armWatch e.1 w.space w.line w.addr | none => u)
    (x.spans.foldl (fun (s : State) sp => s.dropCode x.fn x.hdr.codeRegions sp.g) s4)
  let s6 := x.imageLeat.foldl (fun (s : State) e =>
    let kind := match e.2.kind with
      | .fill slot _ idx => LeatKind.fill slot (s.tile e.1 slot).gen idx
      | .drain slot _ => .drain slot (s.tile e.1 slot).gen
      | k => k
    let id := (s.grid e.1).nextOp
    let t := s.updGrid e.1 fun gr => { gr with leat := gr.leat ++ [{ e.2 with kind := kind, id := id }], nextOp := id + 1 }
    { t with flushes := t.flushes.map fun w => if w.blk = b then { w with ops := w.ops.map fun o => if o = (e.1, e.2.id) then (e.1, id) else o } else w }) s5
  let s7 := x.imageRel.foldl (fun (s : State) e => s.updGrid e.1 fun gr =>
    { gr with autoRel := gr.autoRel ++ [(e.2.1, match e.2.2 with | some cid => (cid, gr.clk) | none => (noContext, 0))] }) s6
  s7.setBlock b { x with phase := .resident, passedFrom := none, savedAt := none, imageRel := [], image := none, imageMem := [], imageTiles := [], imageBanks := [], imageLeat := [], savedFor := none }

/-! ### Dispatch (R55 to R58) -/
/-- Eff of R55. -/
def State.eff (s : State) (x : Block) : Nat := min 11 (x.prio + ((s.mdie x.bin).clk - x.formed) / 2 ^ 20)
/-- The ready list in its order (R55). -/
def State.readyOrder (s : State) (m : Nat) : List (Nat × Block) :=
  let bs := (s.mdie m).ready.filterMap fun b => (s.block? b).map fun x => (b, x)
  sortBy (fun a b =>
    let ea := s.eff a.2
    let eb := s.eff b.2
    decide (eb < ea) || (ea == eb && (decide (a.2.formed < b.2.formed) || (a.2.formed == b.2.formed &&
      (decide (a.2.node < b.2.node) || (a.2.node == b.2.node && decide (a.2.serial % 2 ^ 30 ≤ b.2.serial % 2 ^ 30))))))) bs
/-- Where a block can go on a C-die: a saved one back to its own cluster, another into the fitting cluster with more free
contexts; closed clusters only for the anchored block of the M-die that closed them. -/
def State.bestCluster (s : State) (d b : Nat) (x : Block) (anchorOf : Option Nat) : Option (Nat × Option Placement) :=
  let open_ (c : Nat) : Bool := match (s.cluster c).closed with | none => true | some m => anchorOf == some m
  if (s.cdie d).failed then none
  else if x.phase = .saved then
    (if dieOf (24 * x.cluster) = d ∧ open_ x.cluster ∧ s.restorable b x then some (x.cluster, none) else none)
  else
    let first := s.firstOfTask b x
    let opts := [2 * d, 2 * d + 1].filterMap fun c => if open_ c then (s.fit b x.hdr first c).map fun p => (c, p) else none
    match opts with
    | [a, e] => if s.freeContexts a.1 < s.freeContexts e.1 then some (e.1, some e.2) else some (a.1, some a.2)
    | [a] => some (a.1, some a.2)
    | _ => none
/-- A byte of n at a direct address lies in a page that cannot be read any more (R352). -/
def State.pagesBad (s : State) (a n : Nat) : Bool := s.badPages.any fun p => decide (4096 * p < a + n) && decide (a < 4096 * p + 4096)
/-- A saved block's image lay in a failed stack (R44), or a page of it has retired since (R352). -/
def State.imageLost (s : State) (x : Block) : Bool := match x.savedAt with | some (a, n) => s.stackBad a || s.pagesBad a n | none => false
/-- Put a block where it was found to go; one whose image is lost fails its task. -/
def State.putBlock (s : State) (b : Nat) (x : Block) (w : Nat × Option Placement) : State :=
  let s1 := match w.2 with | some p => s.place b w.1 p | none => if s.imageLost x then s.failTask x.task 6 0 else s.restore b x
  s1.updMdie x.bin fun m => { m with ready := m.ready.filter (· != b) }
/-- The C-dies of M-die m in turn order (R56); a saved block may be on another M-die's die after a steal. -/
def State.turnDies (s : State) (m : Nat) : List Nat := [2 * m + (s.mdie m).turn % 2, 2 * m + ((s.mdie m).turn + 1) % 2]
def State.diesFor (s : State) (m : Nat) (x : Block) : List Nat := if x.phase = .saved then [dieOf (24 * x.cluster)] else s.turnDies m
/-- The first placeable block of a list on the dies it may go to. -/
def State.choose (s : State) (m : Nat) : List (Nat × Block) → Option (Nat × Block × Nat × Option Placement)
  | [] => none
  | (b, x) :: rest =>
    if s.arbitrated x.task then s.choose m rest
    else
      let anchorOf := if (s.mdie m).anchor = some b then some m else none
      match (s.diesFor m x).findSome? fun d => s.bestCluster d b x anchorOf with
      | some w => some (b, x, w)
      | none => s.choose m rest
/-- The head is passed over from the first cycle in which it is not placed (R57). -/
def State.markPassed (s : State) (m b : Nat) : State :=
  s.updBlock b fun x => { x with passedFrom := match x.passedFrom with | some t => some t | none => some (s.mdie m).clk }
/-- The tasks that arbitration holds at M-die m's offers are noted (R321). -/
def State.noteAll (s : State) (m : Nat) : State :=
  (s.readyOrder m).foldl (fun (s : State) e => if s.arbitrated e.2.task then s.noteHeld e.2.task else s) s
/-- M-die m has placed a block in this cycle (R56). -/
def State.placedNow (s : State) (m : Nat) : Bool := (s.mdie m).placed == some (s.mdie m).clk
/-- Place the block that M-die m's offers come to: the turn passes, an anchored block's cluster opens, the head may be passed over. -/
def State.takeOffer (s : State) (m : Nat) (w : Nat × Block × Nat × Option Placement) : State :=
  let s1 := s.putBlock w.1 w.2.1 w.2.2
  let s2 := (s1.updMdie m fun y => { y with turn := (y.turn + 1) % 2, placed := some y.clk }).unanchor m w.1
  match (s.readyOrder m).head? with
  | some (h, _) => if w.1 = h then s2 else s2.markPassed m h
  | none => s2
/-- DISPATCH_OFFER (R56): one M-die cycle's offers, of which one at most places a block. -/
def execDispatchOffer (m : Nat) (s : State) : Out :=
  .next (
    if s.placedNow m then s
    else
      let s0 := s.noteAll m
      match s0.choose m (s.readyOrder m) with
      | some w => s0.takeOffer m w
      | none => match (s.readyOrder m).head? with
        | some (h, _) => s0.markPassed m h
        | none => s0)
/-- ANCHOR_BLOCK (R57): with no anchored block, the longest passed over, at 2^22 cycles, is anchored and closes the cluster
with the most free contexts. -/
def execAnchorBlock (m : Nat) (s : State) : Out :=
  .next (match (s.mdie m).anchor with
    | some _ => s
    | none =>
      let due := (s.readyOrder m).filter fun e => match e.2.passedFrom with | some t => decide (t + 2 ^ 22 ≤ (s.mdie m).clk) | none => false
      let best := due.foldl (fun acc e => match acc with
        | none => some e
        | some a => if e.2.passedFrom.getD 0 < a.2.passedFrom.getD 0 ∨ (e.2.passedFrom = a.2.passedFrom ∧ e.2.formed < a.2.formed) then some e else some a) (none : Option (Nat × Block))
      match best with
      | none => s
      | some (b, _) =>
        let cs := ((s.turnDies m).filter fun d => !(s.cdie d).failed).flatMap fun d => [2 * d, 2 * d + 1]
        let pick := (cs.filter fun c => (s.cluster c).closed.isNone).foldl (fun acc c => match acc with
          | none => some c
          | some a => if s.freeContexts a < s.freeContexts c then some c else some a) none
        match pick with
        | none => s
        | some c => (s.updCluster c fun x => { x with closed := some m }).updMdie m fun x => { x with anchor := some b })
/-- The smallest shape the rules allow (R58). -/
def smallest : Node := { rows := 1, bands := 1, ccount := 1 }
/-- A C-die is idle in this cycle (R58). -/
def State.dieIdle (s : State) (d : Nat) : Bool :=
  !(s.cdie d).failed && !(s.cdie d).placedNow && (s.cdie d).steal.isNone
    && [2 * d, 2 * d + 1].any fun c => (s.cluster c).closed.isNone && (s.fit s.nextBlock smallest true c).isSome
/-- STEAL_REQUEST (R58): after 4,096 idle cycles the first question goes out, no faster than a die edge. -/
def execStealRequest (d : Nat) (s : State) : Out :=
  .next (
    let x := s.cdie d
    if x.steal.isSome ∨ x.idleCount < 4096 then s
    else s.setCdie d { x with idleCount := 0, steal := some { k := 1, due := x.clk + 24 } })
/-- STEAL_ANSWER (R58): the M-die asked gives its first fitting block, never its anchored one, or the next one is asked. It decides as its answer
arrives, so that until then the block stays in its list: the rule does not say when (log entry 51). -/
def execStealAnswer (d : Nat) (s : State) : Out :=
  .next (
    let x := s.cdie d
    match x.steal with
    | none => s
    | some st =>
      if x.clk < st.due then s
      else
        let m := (d / 2 + st.k) % 4
        let cand := (s.readyOrder m).filter fun e => (s.mdie m).anchor != some e.1 && !s.arbitrated e.2.task
        match cand.findSome? fun e => (s.bestCluster d e.1 e.2 none).map fun w => (e, w) with
        | some (e, w) => (s.putBlock e.1 e.2 w).updCdie d fun y => { y with steal := none }
        | none => s.setCdie d { x with steal := if st.k < 3 then some { k := st.k + 1, due := x.clk + 24 } else none })

/-! ### Gating (R64, R216) -/
/-- The grid holds no resident context and no Leat request. -/
def State.gridIdle (s : State) (g : Nat) : Bool := !(s.ctxs.any fun e => gridOf e.1 == g) && (s.grid g).leat.isEmpty
/-- GRID_GATE (R64): the first grid with 65,536 idle cycles gates itself, unless it has a line on its way (R216) or is to take a migration;
one with no spare line left retires (R334). -/
def execGridGate (s : State) : Out :=
  .next (match s.grids.find? fun e => !e.2.gated && decide (65536 ≤ e.2.idle) && s.gridIdle e.1 && e.2.fills.isEmpty && !s.isTarget e.1 with
    | none => s
    | some (g, x) => s.setGrid g { x with gated := true, idle := 0, tempValid := false, retired := x.retired || x.retireAtIdle })
/-- WAKE_WARMUP_END (R64): the first grid whose 2,048 cycles are over. -/
def execWakeWarmupEnd (s : State) : Out :=
  .next (match s.grids.find? fun e => e.2.warm == 1 with
    | none => s
    | some (g, x) => s.setGrid g { x with warm := 0, winStart := x.clk, winReady := 0 })
/-- A beat's request is at a die other than its own: the M-die of its line, or for a peer or the host the X-die. -/
def State.beatsAt (s : State) (p : Beat → Bool) : Bool := s.grids.any fun e => e.2.leat.any fun o => o.beats.any fun b => b.answer.isNone && p b
/-- C-die d has contexts, engine work, lines on their way, walks, a steal request, or write-backs that wait for a peer or
for a rewrite of the interleave table. -/
def State.cdieBusy (s : State) (d : Nat) : Bool :=
  s.ctxs.any (fun e => dieOf (gridOf e.1) == d) || s.grids.any (fun e => dieOf e.1 == d && !(e.2.leat.isEmpty && e.2.fills.isEmpty))
    || !(s.cdie d).walks.isEmpty || !(s.cluster (2 * d)).walkQueue.isEmpty || !(s.cluster (2 * d + 1)).walkQueue.isEmpty
    || (s.cdie d).steal.isSome || !s.peerWrites.isEmpty || !s.heldBacks.isEmpty
/-- M-die m has records or blocks, or a request of another die: a beat, a fill or a walk that reads its memory, a monitor on its way to its
filter (R293), a range steal at its directory (R297, R298), a thief's question. -/
def State.mdieBusy (s : State) (m : Nat) : Bool :=
  let here (pa : Nat) : Bool := match s.homeOf pa with | some a => mdieOf a == m | none => false
  let x := s.mdie m
  !x.inserts.isEmpty || !x.bins.isEmpty || !x.ready.isEmpty || s.queues.any (fun e => e.2.home == m && (!e.2.recs.isEmpty || !e.2.used.isEmpty))
    || s.beatsAt (fun b => b.kind == 0 && here b.target) || s.grids.any (fun e => e.2.fills.any fun f => mdieOf f.addr == m)
    || s.ctxs.any (fun e => match e.2.stage with | .arming _ none line => here (64 * line) | _ => false)
    || s.blocks.any (fun e => e.2.node % 4 == m && (e.2.stealing.isSome || !e.2.takers.isEmpty))
    || s.cdies.any fun e => e.2.walks.any (fun w => (walkReads s w.1 (4096 * w.2.1)).any here) || match e.2.steal with | some st => (e.1 / 2 + st.k) % 4 == m | none => false
/-- The X-die has invocations, retire writes, or requests to peers and the host that are not answered. -/
def State.xdieBusy (s : State) : Bool := !s.invoked.isEmpty || !s.retireWrites.isEmpty || !s.peerWrites.isEmpty || s.beatsAt fun b => b.kind != 0
/-- DIE_GATE (R216): a die's clock stops while it has no request outstanding and holds none of another die. -/
def execDieGate (die : Die) (s : State) : Out :=
  .next (match die with
    | .c d => if s.cdieBusy d then s else s.updCdie d fun x => { x with gated := true }
    | .m m => if s.mdieBusy m then s else s.updMdie m fun x => { x with gated := true }
    | .x => if s.xdieBusy then s else { s with xgated := true })

end Sys2Proof.Machine
end

