-- ==== Sys2Proof/Machine/Fetch.lean ====
section
/-! DEFINITION. Fetching an instruction's bytes (R67, R87 to R91): the instruction cache, its fills through the die cache, the
loop buffer, and what a fault at fetch raises (R85 item 1): the meaning of ICACHE_LINE_FILL. -/
namespace Sys2Proof.Machine

/-- What a row's fetch finds. -/
inductive Fetched
  | bytes (bs : List Byte)
  /-- a line has to come first -/
  | wait (s : State)
  /-- cause, first byte that failed (R87, R325) -/
  | fault (cause : Nat) (addr : Nat)
  /-- the bytes, or a table that leads to them, lay in a failed stack (R44) -/
  | lost

/-- The key of an instruction-cache line: function and VA line. -/
def ikey (fn line : Nat) : Nat := fn * 2 ^ 46 + line
/-- A line of an instruction cache; none lies beyond bit 51 of the VA (R87). -/
def Grid.codeAt (x : Grid) (fn line : Nat) : Option (List Byte) := if line < 2 ^ 46 then Tables.get? x.icache (ikey fn line) else none
/-- Where a code line lies (R87): its direct address and target, the status of its fault, or none while a walk runs. -/
def codeLine (s : State) (c fn line : Nat) : Option (Except Nat (Nat × Nat)) :=
  match s.translate c fn (64 * line) with
  | .miss => none
  | .fail st => some (.error st)
  | .ok kind target r _ _ =>
    if kind ≠ 0 ∨ !r then some (.error 2)
    else match s.homeOf target with
      | some a => some (.ok (a, target))
      | none => some (.error 4)
/-- The bytes that a fill brings: the die cache's where it holds them, else the home's (R88). -/
def fillBytes (s : State) (d fn line a target : Nat) : List Byte :=
  let home := s.home.readN a 64
  match s.dline? d (dkey fn (64 * line)) with
  | some l => if l.kind = 0 ∧ l.target = target then (List.range 64).map fun i => if l.valid.getLsbD i then l.bytes.getD i 0 else home.getD i 0 else home
  | none => home
/-- Die cache d holds a line of code whole (R88). -/
def codeCached (s : State) (d fn line target : Nat) : Bool :=
  match s.dline? d (dkey fn (64 * line)) with
  | some l => l.kind == 0 && l.target == target && l.valid == 0xFFFFFFFFFFFFFFFF#64
  | none => false
/-- The home of a line cannot be read, and the die cache does not hold the line whole (R88, R325). -/
def lineLost (s : State) (g fn line a target : Nat) : Bool := s.memBad a && !codeCached s (dieOf g) fn line target
/-- Ask for a line (R88, R214): a walk, or a fill; a line already on its way is not asked for again; one at an interleaved PA waits while
the interleave table is rewritten (R210). -/
def State.askLine (s : State) (g fn line : Nat) : State :=
  if (s.grid g).fills.any fun e => e.fn == fn && e.line == line && !e.discard then s
  else match codeLine s (clusterOf g) fn line with
    | none => s.startWalk (clusterOf g) fn (64 * line)
    | some (.error _) => s
    | some (.ok (a, t)) => if s.heldPa t then s else s.updGrid g fun x => { x with fills := x.fills ++ [{ fn := fn, line := line, due := x.clk + 1, addr := a, target := t }] }
/-- The bytes of n bytes of code at pc from the instruction cache: none, with the line that is missing. -/
def cachedBytes (x : Grid) (fn pc n : Nat) : Except Nat (List Byte) :=
  let l0 := pc / 64
  let l1 := (pc + n - 1) / 64
  match x.codeAt fn l0, x.codeAt fn l1 with
  | none, _ => .error l0
  | _, none => .error l1
  | some a, some b => .ok ((List.range n).map fun i => if (pc + i) / 64 = l0 then a.getD ((pc + i) % 64) 0 else b.getD ((pc + i) % 64) 0)
/-- n bytes at pc for grid g: cached, to wait for, or a fault at the first byte that fails. -/
def fetchN (s : State) (g fn pc n : Nat) : Fetched :=
  match cachedBytes (s.grid g) fn pc n with
  | .ok bs => .bytes bs
  | .error line =>
    if 2 ^ 52 ≤ 64 * line then .fault 6 (max pc (64 * line))
    else match codeLine s (clusterOf g) fn line with
    | some (.error st) => if st = 6 ∧ s.walkLost fn (64 * line) then .lost else .fault 6 (max pc (64 * line))
    | some (.ok (a, t)) =>
      if !lineLost s g fn line a t then .wait (s.askLine g fn line)
      else if s.stackBad a then .lost else .fault 0xD (max pc (64 * line))
    | none => .wait (s.askLine g fn line)
/-- The loop buffer's bytes at pc, when it holds them whole (R89). -/
def bufBytes (r : PhysRow) (plane fn pc n : Nat) : Option (List Byte) :=
  match r.buf with
  | some b =>
    if b.slot = plane ∧ b.fn = fn ∧ b.base ≤ pc ∧ pc + n ≤ b.base + b.len then b.bytes.map fun bs => (bs.drop (pc - b.base)).take n else none
  | none => none
/-- Bytes of an instruction that begins with this byte (R67). -/
def insnLen (b : Byte) : Nat := match b.toNat % 4 with | 1 => 8 | 2 => 12 | _ => 4
/-- The instruction at a context's pc: first 4 bytes, then as many as its length needs (R67). -/
def fetchInstr (s : State) (cid : Nat) : Fetched :=
  let x := s.ctx cid
  let fn := (s.blockOf x).fn
  let g := gridOf cid
  let pc := x.pc.toNat
  let r := s.prow (rowOf cid)
  let get (n : Nat) : Fetched := match bufBytes r (planeOf cid) fn pc n with | some bs => .bytes bs | none => fetchN s g fn pc n
  match get 4 with
  | .bytes b4 =>
    let n := insnLen (b4.headD 0)
    if n = 4 then .bytes b4 else get n
  | r => r
/-- Bytes of the instruction at pc of the body: as the buffer or the instruction cache has it; the least there is where neither has. -/
def bodyLen (x : Grid) (b : LoopBuf) (pc : Nat) : Nat :=
  match b.bytes with
  | some bs => insnLen (bs.getD (pc - b.base) 0)
  | none => (match cachedBytes x b.fn pc 4 with | .ok bs => insnLen (bs.getD 0 0) | .error _ => 4)
/-- A row's fetch leaves its loop buffer when a byte of its instruction lies outside the body, or at the instruction after its icinv (R89); a body
whose lines have all come is copied in, and one with a line that cannot be fetched is not captured. The buffer of another context stays
until this one issues. -/
def State.tendBuffer (s : State) (cid : Nat) : State :=
  let x := s.ctx cid
  let fn := (s.blockOf x).fn
  let g := gridOf cid
  let r := s.prow (rowOf cid)
  match r.buf with
  | none => if x.icinvNext then s.updCtx cid fun y => { y with icinvNext := false } else s
  | some b =>
    if b.slot ≠ planeOf cid then (if x.icinvNext then s.updCtx cid fun y => { y with icinvNext := false } else s)
    else if x.icinvNext then (s.updRow (rowOf cid) fun q => { q with buf := none }).updCtx cid fun y => { y with icinvNext := false }
    else if b.fn ≠ fn ∨ x.pc.toNat < b.base ∨ b.base + b.len < x.pc.toNat + bodyLen (s.grid g) b x.pc.toNat then s.updRow (rowOf cid) fun q => { q with buf := none }
    else match b.bytes with
      | some _ => s
      | none =>
        let lines := (List.range ((b.base + b.len - 1) / 64 - b.base / 64 + 1)).map fun i => b.base / 64 + i
        match lines.find? fun l => (Tables.get? (s.grid g).icache (ikey fn l)).isNone with
        | none =>
          let bytes := (List.range b.len).map fun i => ((Tables.get? (s.grid g).icache (ikey fn ((b.base + i) / 64))).getD []).getD ((b.base + i) % 64) 0
          s.updRow (rowOf cid) fun q => { q with buf := some { b with bytes := some bytes } }
        | some l => match codeLine s (clusterOf g) fn l with
          | some (.error _) => s.updRow (rowOf cid) fun q => { q with buf := none }
          | some (.ok (a, t)) => if lineLost s g fn l a t then s.updRow (rowOf cid) fun q => { q with buf := none } else s.askLine g fn l
          | none => s.askLine g fn l
/-- ICACHE_LINE_FILL (R88): a line arrives whole, from where it was when it was asked for (R212); one that an icinv overtook, or whose
bytes cannot be read, is dropped; a full cache gives up its first line. One lost with a link times out, and the tasks that wait for it restart
(R216, R355). -/
def execIcacheLineFill (g fn line : Nat) (s : State) : Out :=
  .next (match (s.grid g).fills.find? fun e => e.fn == fn && e.line == line && decide (e.due ≤ (s.grid g).clk) with
    | none => s
    | some e =>
      let s1 := s.updGrid g fun x => { x with fills := x.fills.erase e }
      if e.lost then s1.touch (s1.ctxs.filterMap fun c => if gridOf c.1 = g ∧ (s1.blockOf c.2).fn = fn ∧ (c.2.pc.toNat / 64 = line ∨ (c.2.pc.toNat + 11) / 64 = line) then some (s1.blockOf c.2).task else none)
      else if e.discard then s1
      else if lineLost s g fn line e.addr e.target then s1
      else
        let bs := fillBytes s (dieOf g) fn line e.addr e.target
        s1.updGrid g fun x => { x with icache := Tables.set (ikey fn line) bs (if x.icache.length < 1024 then x.icache else x.icache.drop 1) })

end Sys2Proof.Machine
end

