-- ==== Sys2Proof/Machine/Land.lean ====
section
/-! DEFINITION. What lands, wakes and runs out by itself: results (R106), stores reaching home and their acknowledgements
(R206), the special-function pipe (R196), trap entry (R326), wakes (R283, R292), yields, re-polls and chains (R107, R110, R125),
memory errors (R325, R334, R352). -/
namespace Sys2Proof.Machine

/-- RESULT_LANDS (R106): a result whose cycle has come and that the special-function pipe has accepted. -/
def execResultLands (cid id : Nat) (s : State) : Out :=
  .next (match (s.ctx cid).inflight.find? fun r => r.id == id with
    | none => s
    | some r => if r.queued ∨ s.now cid < r.due then s else s.land cid r)
/-- HOME_STORE (R198, R206): the first of the row's stores whose time has come reaches home, each byte after the delay of its
space. -/
def execHomeStore (cid : Nat) (s : State) : Out :=
  .next (match s.nextHome cid [] (s.ctx cid).stores with
    | none => s
    | some (sts, bs) => (s.updCtx cid fun x => { x with stores := sts }).homeBytes (gridOf cid) bs)
/-- A store is acknowledged once it is home; an atomic, when its old value lands (R198). -/
def Store.acked (st : Store) (now : Nat) : Bool := st.home && (!st.atomic || decide (st.due ≤ now))
/-- A count of the oldest stores of a row, once the one in place i has been acknowledged. -/
def countOff (i n : Nat) : Nat := if i < n then n - 1 else n
/-- STORE_ACK (R198, R206): the oldest of the row's stores that are home is acknowledged. Engine operations and flushes of the
row that wait for it count it off (R233, R320). -/
def execStoreAck (cid : Nat) (s : State) : Out :=
  .next (match (s.ctx cid).stores.findIdx? fun st => st.acked (s.now cid) with
    | none => s
    | some i =>
      let s1 := s.updCtx cid fun x => { x with stores := x.stores.eraseIdx i }
      let s2 := s1.updGrid (gridOf cid) fun g => { g with leat := g.leat.map fun o => if o.cid = cid then { o with waitStores := countOff i o.waitStores } else o }
      { s2 with flushes := s2.flushes.map fun w => if w.cid = cid ∧ !w.started then { w with waitStores := countOff i w.waitStores } else w })
/-- SFU_ACCEPT (R196): the pipe of row p takes its oldest entry, one in four cycles; the result lands 12 cycles later. -/
def execSfuAccept (p : Nat) (s : State) : Out :=
  .next (
    let r := s.prow p
    match r.sfuQueue with
    | [] => s
    | (cid, id) :: rest =>
      let now := s.now cid
      if (match r.sfuLast with | some t => decide (now < t + 4) | none => false) then s
      else
        (s.setRow p { r with sfuQueue := rest, sfuLast := some now }).updCtx cid fun x =>
          { x with inflight := x.inflight.map fun e => if e.id = id then { e with queued := false, due := now + 12 } else e })
/-- TAKE_TRAP (R326): the results in flight have landed; the row enters its handler, or its block aborts. -/
def execTakeTrap (cid : Nat) (s : State) : Out :=
  .next (match s.ctx? cid with
    | none => s
    | some x => match x.pendingTrap with
      | none => s
      | some t => if x.inflight.isEmpty then s.enterTrap cid t else s)

/-! ### Waking (R283, R292, R294) -/
/-- What a parked context waits for has come about. -/
def State.wakeDue (s : State) (obj : WaitObj) (cid : Nat) (x : Ctx) : Bool :=
  match obj, x.parked with
  | .future h, some (.future k) => h == k && (match s.future? h with | some e => e.state != 1 | none => true)
  | .barrier blk band k, some (.barrier bd j tok) => x.blk == blk && bd == band && j == k && (bd.isNone || bd == some x.bandid) && s.phasePassed cid bd j tok
  | .range blk, some .range => x.blk == blk && (match x.stage with | .answered _ => true | _ => false)
  | .watch c, some (.watch _) => c == cid && x.wake.isSome
  | _, _ => false
/-- PARK_WAKE (R283): every context parked on the object whose event has occurred becomes ready. -/
def execParkWake (obj : WaitObj) (s : State) : Out := .next (s.wakeWhere fun cid x => s.wakeDue obj cid x)
/-- WATCH_WAKE_ARRIVAL (R292): a wake on its way reaches its context. -/
def execWatchWakeArrival (cid serial : Nat) (s : State) : Out :=
  .next (match s.wakes.find? fun w => w.1 == cid && w.2.1 == serial with
    | none => s
    | some w => ({ s with wakes := s.wakes.erase w }).deliverWake cid serial w.2.2)
/-- MWAIT_TIMEOUT (R294): the first context whose mwait has run out becomes ready. -/
def execMwaitTimeout (s : State) : Out :=
  .next (match s.ctxs.find? fun e => match e.2.parked with | some (.watch (some t)) => decide (t ≤ s.now e.1) | _ => false with
    | some (cid, x) => s.setCtx cid { x with parked := none }
    | none => s)
/-- A block with waiting takers and no steal under way (R298). -/
def Block.mustSteal (b : Block) : Bool :=
  !b.takers.isEmpty && b.stealing.isNone && (match b.phase with | .resident | .draining _ | .stopping _ => true | _ => false)
/-- RANGE_STEAL (R298): the first block with waiting takers and no steal under way begins one. -/
def execRangeSteal (s : State) : Out :=
  .next (match s.blocks.find? fun e => e.2.mustSteal with
    | some (b, _) => s.steal b
    | none => s)
/-- REPOLL (R283): the first re-polling context whose look is past looks again 256 cycles later. -/
def execRepoll (s : State) : Out :=
  .next (match s.ctxs.find? fun e => match e.2.repollAt with | some t => decide (t < s.now e.1) | none => false with
    | some (cid, x) => s.setCtx cid { x with repollAt := x.repollAt.map (· + 256) }
    | none => s)
/-- YIELD_EXPIRY (R125): the first yield whose 64 cycles are over. -/
def execYieldExpiry (s : State) : Out :=
  .next (match s.ctxs.find? fun e => match e.2.yieldedUntil with | some t => decide (t ≤ s.now e.1) | none => false with
    | some (cid, x) => s.setCtx cid { x with yieldedUntil := none }
    | none => s)
/-- CHAIN_STALL_BREAK (R110): a held chain stalled for 64 consecutive cycles ends. -/
def execChainStallBreak (p : Nat) (s : State) : Out :=
  .next (if 64 ≤ (s.prow p).chainStall then s.updRow p fun r => { r with chain := none, chainStall := 0 } else s)

/-! ### Memory errors (R325, R334, R352) -/
/-- Count a transient error, or a lasting one. -/
def State.countError (s : State) (ok : Bool) : State :=
  if ok then { s with ecntTrans := min 65535 (s.ecntTrans + 1) } else { s with ecntLast := min 65535 (s.ecntLast + 1) }
/-- Retire the 4 KiB page of a direct address (R352); queue records in it are gone. -/
def State.retirePage (s : State) (a : Nat) : State :=
  if s.badPages.contains (a / 4096) then s else ({ s with badPages := s.badPages ++ [a / 4096] }).dropLostRecs
/-- Record a context's register or accumulator as bad: array 3, 4 or 5. -/
def State.recordReg (s : State) (cid array n : Nat) : State := s.recordLine (gridOf cid) array (regLine cid array n)
/-- Arrays of a unit: a grid's nine, a C-die's two, an M-die's Pond. -/
def arraysOf (u : Nat) : Nat := if u < 384 then 9 else if u < 392 then 2 else if u < 396 then 1 else 0
/-- The access at a site exists now. -/
def State.errorAt (s : State) : ErrSite → Bool
  | .load cid id _ => (s.ctx cid).inflight.any fun r => r.id == id && r.loadAddr.isSome
  | .beat g op beat => (s.findBeat g op beat).isSome
  | .walk d fn granule _ => (s.cdie d).walks.any fun w => w.1 == fn && w.2.1 == granule
  | .fetch g fn line => match codeLine s (clusterOf g) fn line with | some (.ok _) => true | _ => false
  | .vreg cid n => (s.ctx? cid).isSome && decide (n < 64)
  | .sreg cid n => (s.ctx? cid).isSome && decide (n < 160)
  | .acc cid n => (s.ctx? cid).isSome && decide (n < 16)
  | .sram u array _ => decide (array < arraysOf u)
/-- The retry fails: the access completes as R325 and R215 say, and what is lastingly bad is recorded (R334, R352). -/
def State.lastingError (s : State) : ErrSite → State
  | .load cid id k => match (s.ctx cid).inflight.find? fun r => r.id == id with
    | some r =>
      let t := s.updCtx cid fun x => { x with inflight := x.inflight.map fun e => if e.id = id then { e with poison := e.loadAddr, due := e.due + 16 } else e }
      (match r.lines[k]? with | some l => t.recordLine l.1 0 l.2 | none => t)
    | none => s
  | .beat g op beat => match s.findBeat g op beat with
    | some (_, b) =>
      let s1 := if b.kind = 0 then (match s.homeOf b.target with | some a => s.retirePage a | none => s) else s
      s1.beatFail g op b 6
    | none => s
  | .walk d fn granule level =>
    let s0 := match (walkReads s fn (4096 * granule))[level]?.bind fun pa => s.homeOf pa with | some a => s.retirePage a | none => s
    let s1 := s0.updCdie d fun x => { x with walks := x.walks.filter (fun w => !(w.1 == fn && w.2.1 == granule))
                                             walkFails := x.walkFails ++ [(fn, granule, 6, x.clk + 4)] }
    s1.nextWalk d
  | .fetch g fn line => match codeLine s (clusterOf g) fn line with
    | some (.ok (a, _)) => (s.retirePage a).updGrid g fun x => { x with fills := x.fills.filter fun e => !(e.fn == fn && e.line == line) }
    | _ => s
  | .vreg cid n => s.recordReg cid 3 n
  | .sreg cid n => s.recordReg cid 4 n
  | .acc cid n => s.recordReg cid 5 n
  | .sram u array line => s.recordLine u array line
/-- The retry succeeds, at the cost of 16 cycles. -/
def State.transientError (s : State) : ErrSite → State
  | .load cid id _ => s.updCtx cid fun x => { x with inflight := x.inflight.map fun e => if e.id = id then { e with due := e.due + 16 } else e }
  | .vreg cid _ | .sreg cid _ | .acc cid _ => s.updCtx cid fun x => { x with notBefore := max x.notBefore (s.now cid + 16) }
  | _ => s
/-- MEMORY_ERROR_RETRY (R334): an access has met an uncorrectable error and was retried. -/
def execMemoryErrorRetry (site : ErrSite) (retryOk : Bool) (s : State) : Out :=
  .next (if !s.errorAt site then s else if retryOk then (s.transientError site).countError true else (s.lastingError site).countError false)
/-- A resident block holds data in a line of a grid: in its spans, its slots, its banks, its rows' registers or ports; a cache holds
copies only. -/
def State.gridLineUsed (s : State) (g array line : Nat) : Bool :=
  let row (p : Nat → Bool) : Bool := s.ctxs.any fun e => gridOf e.1 == g && p (e.1 % 128)
  match array with
  | 0 => s.blocks.any fun e => e.2.phase != .saved && e.2.spans.any fun sp => sp.g == g && decide (sp.base < 64 * line + 64) && decide (64 * line < sp.lim)
  | 1 => (s.tile g (line / 272)).owner.isSome
  | 2 => s.ctxs.any fun e => gridOf e.1 == g && e.2.banks.getLsbD (line / 16)
  | 3 => row fun c => c == line / 64
  | 4 => row fun c => c == line / 160
  | 5 => row fun c => c == line / 16
  | 6 => row fun c => c / 4 == line
  | _ => false
/-- A resident block holds data in a line of a unit: in the scratchpad, one whose window it lies in. -/
def State.lineUsed (s : State) (u array line : Nat) : Bool :=
  if u < 384 then s.gridLineUsed u array line
  else decide (u < 392) && array == 0 && s.blocks.any fun e => e.2.phase != .saved && e.2.cluster / 2 == u - 384 && !e.2.rows.isEmpty
    && decide (e.2.scrbase - 0x10000000 ≤ 64 * line) && decide (64 * line < e.2.scrlim - 0x10000000)
/-- The lines of a unit that have gone to spares, and its arrays' own number for Config.spareLines. -/
def State.remappedOf (s : State) (u : Nat) : List (Nat × Nat) :=
  if u < 384 then (s.grid u).remapped else if u < 392 then (s.cdie (u - 384)).remapped else (s.mdie (u - 392)).remapped
def arrayKind (u array : Nat) : Nat := if u < 384 then array else if u < 392 then 9 + array else 11 + array
/-- A bad line goes to a spare. -/
def State.remapLine (s : State) (u array line : Nat) : State :=
  if u < 384 then s.updGrid u fun x => { x with badLines := x.badLines.erase (array, line), remapped := x.remapped ++ [(array, line)] }
  else if u < 392 then s.updCdie (u - 384) fun x => { x with badLines := x.badLines.erase (array, line), remapped := x.remapped ++ [(array, line)] }
  else s.updMdie (u - 392) fun x => { x with badLines := x.badLines.erase (array, line), remapped := x.remapped ++ [(array, line)] }
/-- SRAM_LINE_REMAP (R334): a bad line that no resident block holds data in goes to a spare of its array; with none left a grid
retires at its next idle period. -/
def execSramLineRemap (u array line : Nat) (s : State) : Out :=
  .next (
    if !s.sramBad u array line || s.lineUsed u array line then s
    else if ((s.remappedOf u).filter fun e => e.1 == array).length < Config.spareLines (arrayKind u array) then s.remapLine u array line
    else if u < 384 then s.updGrid u fun x => { x with retireAtIdle := true }
    else s)

end Sys2Proof.Machine
end

