-- ==== Sys2Proof/Machine/Wheel.lean ====
section
/-! DEFINITION. The Wheel (R113 to R119) and the classes of a grid (R122 to R126): the meanings of WHEEL_STOP,
REQUEST_RESERVATION, WSUP_WRITE, MCADW_WRITE, ACTIVITY_WINDOW_END and CLASS_CHANGE_EFFECT. -/
namespace Sys2Proof.Machine

/-! ### Classes (R122 to R124) -/
/-- A block's class request: the highest set by its rows (R122). -/
def State.blockRequest (s : State) (b : Block) : Option Nat :=
  b.rows.foldl (fun acc cid => match (s.ctx cid).classReq, acc with
    | none, a => a
    | some r, none => some r
    | some r, some a => some (max r a)) none
/-- Requests that count on a grid: of its resident blocks, as its last Wheel stop saw them. -/
def State.liveRequests (s : State) (g : Nat) : List Nat :=
  ((s.grid g).reqs.filter fun e => match s.block? e.1 with | some b => b.phase != .saved && b.phase != .retired && (b.span? g).isSome | none => false).map (·.2)
/-- The chosen class (R122). -/
def State.chosenClass (s : State) (g : Nat) : Nat := match s.liveRequests g with | [] => 2 | r :: rs => rs.foldl max r
/-- A thermal rule holds the grid at class 0 (R122). -/
def Grid.thermal (x : Grid) : Bool := x.hot || (match x.migration with | some m => m.target.isNone || (m.timedOut && !m.captured) | none => false)
/-- The class a grid is to run at. -/
def State.dueClass (s : State) (g : Nat) : Nat :=
  let x := s.grid g
  if x.thermal then 0
  else if x.warm ≠ 0 then 2
  else if x.lowHold && !((s.liveRequests g).any fun r => decide (2 ≤ r)) then 0
  else s.chosenClass g
/-- Begin a class change when the class due is not the one it runs at or moves to (R124); a request of 2 or 3 ends the
hold of R123, but for a grid that a thermal rule holds. -/
def State.reclass (s : State) (g : Nat) : State :=
  let x := s.grid g
  let due := s.dueClass g
  let hold := x.lowHold && (x.thermal || !((s.liveRequests g).any fun r => decide (2 ≤ r)))
  let to_ := match x.change with | some (n, _) => n | none => x.cls
  let change := if due = to_ then x.change else if due = x.cls then none else some (due, x.clk + 1)
  if hold = x.lowHold ∧ change = x.change then s else s.setGrid g { x with lowHold := hold, change := change }
/-- CLASS_CHANGE_EFFECT (R124): the first change that is due takes effect. -/
def execClassChangeEffect (s : State) : Out :=
  .next (match s.grids.find? fun e => match e.2.change with | some (_, t) => decide (t ≤ e.2.clk) | none => false with
    | some (g, x) => match x.change with
      | some (n, _) => s.setGrid g { x with cls := n, change := none }
      | none => s
    | none => s)
/-- Row-cycles of a window, and the quarter of R123. -/
def windowCycles : Nat := 2 ^ 16
def windowQuarter : Nat := 32 * 2 ^ 16 / 4
/-- The window of a grid is over. -/
def Grid.windowOver (x : Grid) : Bool := !x.gated && x.warm == 0 && decide (x.winStart + windowCycles ≤ x.clk)
/-- What the end of its window makes of a grid: too few ready row-cycles hold it at class 0; enough end that, but for a grid that a thermal
rule holds. -/
def State.windowEnd (s : State) (g : Nat) (x : Grid) : State :=
  let low := (decide (x.winReady < windowQuarter) && !((s.liveRequests g).any fun r => decide (2 ≤ r))) || (x.lowHold && x.thermal)
  (s.setGrid g { x with winStart := x.winStart + windowCycles, winReady := 0, lowHold := low }).reclass g
/-- ACTIVITY_WINDOW_END (R123): every grid whose window is over. -/
def execActivityWindowEnd (s : State) : Out :=
  .next ((s.grids.filter fun e => e.2.windowOver).foldl (fun s e => s.windowEnd e.1 e.2) s)

/-! ### Requests -/
/-- What a request is for: a loop's top-up (R119), a shed loop (R117), a context's next instruction (R114). -/
inductive AskFor
  | topup | loop | next
  deriving DecidableEq, Repr
/-- One request at a grid: whose, and what for. -/
structure Asked where
  cid : Nat
  for_ : AskFor
  req : Request
  prio : Nat
/-- A shed loop's request. -/
def Ctx.loopRequest (x : Ctx) : Option Request := x.loop.bind (·.request)
/-- The requests of a grid: top-ups, then each context's shed loop and next instruction. -/
def State.asked (s : State) (g : Nat) : List Asked :=
  let prio (cid : Nat) := (s.blockOf (s.ctx cid)).prio
  ((s.grid g).topups.map fun e => { cid := e.1, for_ := .topup, req := e.2, prio := prio e.1 })
    ++ (s.ctxs.filter fun e => gridOf e.1 == g).flatMap fun e =>
      e.2.loopRequest.toList.map (fun r => { cid := e.1, for_ := .loop, req := r, prio := prio e.1 })
        ++ e.2.request.toList.map fun r => { cid := e.1, for_ := .next, req := r, prio := prio e.1 }
/-- Some request is posted on the grid. -/
def State.anyAsked (s : State) : Bool :=
  s.ctxs.any (fun e => e.2.request.isSome || e.2.loopRequest.isSome) || s.grids.any fun e => !e.2.topups.isEmpty
/-- The place of a request in the orders of R114 and R116: a context number rises with position, row and slot. -/
def Asked.older (a b : Asked) : Bool := decide (a.req.cycle < b.req.cycle) || (a.req.cycle == b.req.cycle && decide (a.cid ≤ b.cid))
def Asked.before (a b : Asked) : Bool := decide (b.prio < a.prio) || (a.prio == b.prio && a.older b)
/-- Grant a request its whole price. -/
def State.grant (s : State) (a : Asked) : State :=
  let s1 := s.updCluster (clusterOf (gridOf a.cid)) fun c => { c with free := c.free - a.req.price, held := c.held + a.req.price }
  match a.for_ with
  | .topup => (s1.updCtx a.cid fun x => { x with loop := x.loop.map fun l => { l with held := l.held + a.req.price } }).updGrid (gridOf a.cid)
      fun g => { g with topups := g.topups.filter fun e => e.1 != a.cid }
  | .loop => s1.updCtx a.cid fun x => { x with loop := x.loop.map fun l => { l with held := l.held + a.req.price, request := none } }
  | .next => s1.updCtx a.cid fun x => { x with granted := x.granted + a.req.price, request := none }
/-- The oldest reservation of a cluster (R116). -/
def State.oldestReservation (s : State) (c : Nat) : Option Asked :=
  let all := (List.range 24).flatMap fun i => (s.asked (24 * c + i)).filter (·.req.reserved)
  (sortBy Asked.older all).head?
/-- Reservations first, while the oldest stands at this grid and the free count covers it; then, with none left, the
requests in the order of R114. -/
def grantAt (g : Nat) : Nat → State → State
  | 0, s => s
  | k + 1, s =>
    let c := clusterOf g
    match s.oldestReservation c with
    | some a => if gridOf a.cid = g ∧ a.req.price ≤ (s.cluster c).free then grantAt g k (s.grant a) else s
    | none => (sortBy Asked.before (s.asked g)).foldl (fun (s : State) a => if a.req.price ≤ (s.cluster c).free then s.grant a else s) s
/-- Buckets in circulation (R118). -/
def Cluster.circ (c : Cluster) : Nat := c.free + c.held
/-- Collect what the grid has returned, then add at position 0 what a raised target lacks, or destroy free buckets above the
target (R113, R118). -/
def Cluster.balance (c : Cluster) (returned : Nat) : Cluster :=
  let n := min returned c.held
  let f := c.free + n
  let h := c.held - n
  if c.pos = 0 ∧ f + h < c.target then { c with free := c.target - h, held := h }
  else { c with free := f - (f + h - c.target), held := h }
/-- Top-ups of loops that are gone are void (R119). -/
def State.liveTopups (s : State) (g : Nat) : List (Nat × Request) := (s.grid g).topups.filter fun e => (s.ctx e.1).loop.isSome
/-- WHEEL_STOP (R113): cluster c's packet makes its next stop: collect, balance, grant; the class requests reach the
grid (R126). -/
def execWheelStop (c : Nat) (s : State) : Out :=
  .next (
    let cl := s.cluster c
    let now := (s.cdie (c / 2)).clk
    if now < cl.tick then s
    else
      let g := 24 * c + cl.pos
      let x := s.grid g
      let here := s.blocks.filter fun e => (e.2.span? g).isSome && (match e.2.phase with | .resident | .draining _ | .stopping _ | .aborting => true | _ => false)
      let s1 := s.setCluster c (cl.balance x.returned)
      let s2 := s1.setGrid g { x with returned := 0, topups := s.liveTopups g, reqs := here.filterMap fun e => (s.blockRequest e.2).map fun r => (e.1, r) }
      let s3 := (grantAt g (s2.asked g).length.succ s2).reclass g
      s3.updCluster c fun y => { y with pos := (y.pos + 1) % 24, tick := now + 2 })
/-- REQUEST_RESERVATION (R116): requests that have waited 96 cycles become reservations. -/
def execRequestReservation (s : State) : Out :=
  .next (
    let old (cid : Nat) (r : Request) : Request := if r.cycle + 96 ≤ (s.cdie (dieOf (gridOf cid))).clk then { r with reserved := true } else r
    let s1 := s.mapCtxs fun cid x => { x with request := x.request.map (old cid), loop := x.loop.map fun l => { l with request := l.request.map (old cid) } }
    { s1 with grids := s1.grids.map fun (e : Nat × Grid) => (e.1, { e.2 with topups := e.2.topups.map fun t => (t.1, old t.1 t.2) }) })

/-! ### The power controller's registers (R118, R119, R349) -/
/-- WSUP's target field: clamped between floor and ceiling; the floor while PCLAMP clamps. -/
def wsupTarget (clamp : Bool) (c : Nat) (v : Word64) : Nat :=
  if clamp then Config.wheelFloor else min (Config.wheelCeil c) (max Config.wheelFloor (bitsOf v 13 0))
/-- WSUP_WRITE (R118). -/
def execWsupWrite (c : Nat) (value : Word64) (s : State) : Out :=
  .next (s.updCluster c fun x => { x with target := wsupTarget s.clamp c value })
/-- MCADW's field (R119). -/
def mcadOf (v : Word64) : Nat := min 16 (max 1 (bitsOf v 4 0))
/-- A loop under a new cadence: what it hands back, what it must still get by a top-up (R119); one that has shed and waits
for its price asks for the new one. -/
def Loop.reprice (l : Loop) (price : Nat) : Loop × Nat × Nat :=
  if l.halted then ({ l with price := price }, 0, 0) else match l.request with
  | some q => ({ l with price := price, request := some { q with price := price } }, 0, 0)
  | none => ({ l with price := price, held := min l.held price }, l.held - price, price - l.held)
/-- MCADW_WRITE (R119): loops in flight return the difference, or post top-ups dated from the write. -/
def execMcadwWrite (g : Nat) (value : Word64) (s : State) : Out :=
  .next (
    let m := mcadOf value
    let price := (16 + m - 1) / m
    let clk := (s.cdie (dieOf g)).clk
    let s0 := s.updGrid g fun x => { x with mcadNext := some m, topups := [] }
    (s.ctxs.filter fun e => gridOf e.1 == g).foldl (fun (s : State) e => match e.2.loop with
      | none => s
      | some l =>
        let r := l.reprice price
        let s1 := (s.updCtx e.1 fun x => { x with loop := some r.1 }).returnBuckets g r.2.1
        if r.2.2 = 0 then s1 else s1.updGrid g fun x => { x with topups := x.topups ++ [(e.1, { price := r.2.2, cycle := clk })] }) s0)

end Sys2Proof.Machine
end

