-- ==== Sys2Proof/Machine/Preempt.lean ====
section
/-! DEFINITION. Interrupted work (R335 to R345): pre-emption and its three modes, the images of a context and of a block, and
migration: the meanings of PREEMPT_REQUEST, DRAIN_TIMEOUT, BLOCK_FLUSH_RESTART, BLOCK_SAVE, BLOCK_RESTORE, SENSOR_UPDATE,
MIGRATION_CAPTURE, MIGRATION_HOLD_LIFT, MIGRATION_HOLD_RETAKE, MIGRATION_CAPTURE_TIMEOUT, MIGRATION_MOVE_DONE. -/
namespace Sys2Proof.Machine

/-! ### Choosing a mode (R336) -/
/-- The three modes. -/
inductive Mode
  | drain | restart | save
  deriving DecidableEq, Repr
/-- Rows that have executed done. -/
def State.doneRows (s : State) (b : Block) : Nat := (b.rows.filter fun cid => (s.ctx cid).done).length
/-- The mode for a block with rows R, done rows D, instructions I and hint H. -/
def modeOf (idem : Bool) (r d i h : Nat) : Mode :=
  if 7 * r < 8 * d ∨ (h ≠ 0 ∧ 7 * (h * r) < 8 * i) then .drain
  else if idem ∧ 4 * d < r ∧ (h = 0 ∨ 4 * i < h * r) then .restart
  else .save
/-- The mode of R336 for a block as it stands; one with an rinit on its way to its range has executed it (R299). -/
def State.preemptMode (s : State) (b : Block) : Mode :=
  modeOf (b.hdr.idempotent && !b.rinit && !b.rdone && !(b.requests.any (·.init.isSome))) b.rows.length (s.doneRows b) b.count b.hdr.hint
/-- A context is inside a chain that its physical row holds (R110). -/
def State.inChain (s : State) (cid : Nat) : Bool := match (s.prow (rowOf cid)).chain with | some (sl, _) => sl == planeOf cid | none => false
/-- A context of a block that is being stopped, between chains: nothing of it issues any more. -/
def State.stops (s : State) (b cid : Nat) (x : Ctx) : Bool := x.blk == b && !s.inChain cid
/-- Hold the contexts of a block that are between chains: what they had been granted goes back, and they ask for nothing, so that a block's
last loops can have their price (R114, R121, R337). One that waited for the Baton for its next mloop is no longer Baton-pending, and state bit 4
of its image is 0 (R340 does not say what it is: log entry 65). -/
def State.holdBlock (s : State) (b : Nat) : State :=
  ((s.ctxs.filter fun e => s.stops b e.1 e.2).foldl (fun (t : State) e => t.returnBuckets (gridOf e.1) e.2.granted) s).mapCtxs fun cid x =>
    if s.stops b cid x then { x with held := true, granted := 0, request := none, batonPending := false } else x
/-- A cluster closed for an anchored block, and the resident block that R57 asks to yield: the lowest priority below the
anchored block's Eff, when none is already yielding and the anchored block does not fit. -/
def State.preemptDue (s : State) (m : Nat) : Option Nat :=
  match (s.mdie m).anchor.bind fun a => (s.block? a).map fun x => (a, x) with
  | none => none
  | some (a, x) =>
    match s.clusters.find? fun e => e.2.closed == some m with
    | none => none
    | some (c, _) =>
      let here := s.blocks.filter fun e => e.2.cluster == c && !e.2.rows.isEmpty
      if here.any fun e => match e.2.phase with | .draining _ | .stopping _ => true | _ => false then none
      else if (s.bestCluster (c / 2) a x (some m)).isSome then none
      else
        let low := (here.filter fun e => e.2.phase == .resident).foldl (fun acc e => match acc with
          | none => some e
          | some q => if e.2.prio < q.2.prio then some e else some q) (none : Option (Nat × Block))
        match low with
        | some (b, y) => if y.prio < s.eff x then some b else none
        | none => none
/-- PREEMPT_REQUEST (R57, R336): the block is asked to yield; its mode is chosen from its progress, between its chains. -/
def execPreemptRequest (blk : Nat) (s : State) : Out :=
  .next (
    if !((List.range 4).any fun m => s.preemptDue m == some blk) then s
    else match s.block? blk with
      | none => s
      | some b =>
        if b.rows.any s.inChain then s
        else
          let anchorOf := ((List.range 4).find? fun m => s.preemptDue m == some blk).bind fun m => (s.mdie m).anchor
          let clk := (s.cdie (b.cluster / 2)).clk
          let b1 := { b with savedFor := anchorOf }
          match s.preemptMode b with
          | .drain => s.setBlock blk { b1 with phase := .draining (clk + 2 ^ 20) }
          | .restart => (s.setBlock blk { b1 with phase := .stopping true }).holdBlock blk
          | .save => (s.setBlock blk { b1 with phase := .stopping false }).holdBlock blk)
/-- DRAIN_TIMEOUT (R337): the first block that has drained for 2^20 cycles is to be saved. -/
def execDrainTimeout (s : State) : Out :=
  .next (match s.blocks.find? fun e => match e.2.phase with | .draining t => decide (t ≤ (s.cdie (e.2.cluster / 2)).clk) | _ => false with
    | some (b, x) => (s.setBlock b { x with phase := .stopping false }).holdBlock b
    | none => s)

/-! ### Stopping a block -/
/-- A stopped context has landed all its work but a loop and the engine's (R338). -/
def Ctx.landed (x : Ctx) : Bool := (x.held || x.done || x.parked.isSome) && x.inflight.isEmpty && x.stores.isEmpty && x.pendingTrap.isNone && x.bankOps.isEmpty
/-- Leat operations of a block that have sent nothing, and whether any other is left. -/
def State.unsent (s : State) (b : Nat) : List (Nat × LeatOp) := s.grids.flatMap fun e => (e.2.leat.filter fun o => o.blk == b && o.nextBeat == 0).map fun o => (e.1, o)
def State.sentLeft (s : State) (b : Nat) : Bool := s.grids.any fun e => e.2.leat.any fun o => o.blk == b && o.nextBeat != 0
def State.dropUnsent (s : State) (b : Nat) : State :=
  { s with grids := s.grids.map fun (e : Nat × Grid) => (e.1, { e.2 with leat := e.2.leat.filter fun o => !(o.blk == b && o.nextBeat == 0) }) }
/-- A thief that goes asks no block any more (R298). -/
def State.unask (s : State) (blk : Nat) : State := { s with blocks := Tables.mapVal (fun _ y => { y with asked := y.asked.filter (· != blk) }) s.blocks }
/-- The block goes back to its M-die's ready list. -/
def State.requeue (s : State) (b bin : Nat) : State := s.updMdie bin fun m => { m with ready := if m.ready.contains b then m.ready else m.ready ++ [b] }

/-- BLOCK_FLUSH_RESTART (R337): once beats and loops in flight are over, the block's held records and futures go, its
resources are freed, and it waits to be placed afresh. A loop that can get no further goes with them. Two points no rule settles: a range that it
had stolen stays its own, with its bit in the directory, until it is placed again, and thieves that wait for its answer get theirs (log entry 119);
the count I of R336 starts again (log entry 120). -/
def execBlockFlushRestart (blk : Nat) (s : State) : Out :=
  .next (match s.block? blk with
    | none => s
    | some b =>
      if b.phase ≠ .stopping true then s
      else
        let s0 := s.holdBlock blk
        let ok := (s0.ctxsOf blk).all (fun e => e.2.landed) && s0.loopsOver blk true && !s0.sentLeft blk
        if !ok then s0
        else
          let ops := s0.unsent blk
          let s1 := ops.foldl (fun (s : State) e => (s.returnBuckets e.1 e.2.buckets).settle e.2.fut 4 0 9) (s0.dropUnsent blk)
          let mine := s1.journal.filter fun h => h.blk == blk
          let s2 := mine.foldl (fun (s : State) h => match h.fut with | some hd => s.settle hd 3 7 9 | none => s) { s1 with journal := s1.journal.filter fun h => h.blk != blk }
          let s3 := (s2.softPending blk).foldl (fun (s : State) h => s.settle h 4 0 9) s2
          let s4 := ((s3.releaseBlock blk).freeOwned blk).answerThieves blk
          ((s4.unask blk).updBlock blk fun y => { y with phase := .ready, barriers := [], count := 0, takers := [], requests := [], stealing := none, savedFor := none }).requeue blk b.bin)

/-- Where an instruction that takes several cycles stands in a block image. -/
def Ctx.imagedStage (x : Ctx) (now : Nat) : Stage :=
  match x.stage with
  | .waitingSince c past => .waitingSince 0 (past + (now - c))
  | .arrived tok => .arrived tok | .gotMask _ => .gotMask 0 | .answered v => .answered v | .fwaiting h => .fwaiting h
  | _ => .fresh
/-- A context as a block image holds it: what it waited for is looked at again, an mwait's wait as cycles gone by, and what had only been
asked for is asked for again. -/
def Ctx.imaged (x : Ctx) (now : Nat) : Ctx :=
  { x with granted := 0, request := none, batonPending := false, repollAt := none, yieldedUntil := none, held := false, bpassTo := none
           loop := x.loop.map fun l => { l with held := 0, request := none }
           stage := x.imagedStage now, going := if (x.imagedStage now).issued then x.going else none }
/-- Everything of a block that its image holds (R341). Its Leat operations' buckets are returned at the save and not asked for again when
the operations are issued again (log entry 92). -/
def State.withImage (s : State) (blk : Nat) (b : Block) : Block :=
  let ctxs := b.rows.map fun cid => (s.ctx cid).imaged (s.now cid)
  let tiles := b.spans.flatMap fun sp => (List.range 32).filterMap fun n =>
    if (s.tile sp.g n).owner = some blk then some (sp.g, n, s.tile sp.g n, s.slotMem.slice (slotKey sp.g n) 17408) else none
  let banks := b.rows.flatMap fun cid => (banksOf (s.ctx cid).banks).map fun k => (gridOf cid, k, s.bankMem.slice (bankKey (gridOf cid) k) 768)
  { b with image := some ctxs, imageTiles := tiles, imageBanks := banks
           imageLeat := (s.unsent blk).map fun e => (e.1, { e.2 with buckets := 0 })
           imageRel := b.spans.flatMap fun sp => ((s.grid sp.g).autoRel.filter fun r => (s.tile sp.g r.1).owner == some blk).map fun r =>
             (sp.g, r.1, match (s.ctx r.2.1).loop with | some l => if l.issued = r.2.2 then some r.2.1 else none | none => none)
           imageMem := b.spans.map fun sp => (sp.g, s.side.slice (2 ^ 21 * sp.g + sp.base) (sp.lim - sp.base)) }
/-! ### The context image (R340) -/
/-- A number's byte from bits, one per index. -/
def bitBytes (n : Nat) (p : Nat → Bool) : List Byte := leBytes n ((List.range (8 * n)).foldl (fun acc i => if p i then acc + 2 ^ i else acc) 0)
/-- The wait kind and the wait object; of a barrier the fields of R291 side by side (R7): band flag, k in three bits, token. -/
def Ctx.waitKind (x : Ctx) : Nat :=
  match x.parked with
  | none => 0
  | some (.future h) => if x.stage == .fwaiting h then 2 else 1
  | some (.barrier _ _ _) => 3 | some (.watch _) => 4 | some .range => 5
def Ctx.waitObject (x : Ctx) : List Byte :=
  match x.parked with
  | some (.future h) => leBytes 8 h.toNat
  | some (.barrier band k tok) => leBytes 8 (ofBool band.isSome * 2 ^ 35 + k * 2 ^ 32 + tok.toNat)
  | _ => leBytes 8 0
/-- The 12,928 bytes of a context's image at grid cycle now: baton is whether its row's Baton is its own, watched the watched
address and whether it is global. -/
def Ctx.bytes (x : Ctx) (cid now : Nat) (baton : Bool) (watched : Nat × Bool) : List Byte :=
  let lanes (v : Lanes) := (List.range 32).flatMap fun l => leBytes 4 (v.get l).toNat
  let z (n : Nat) : List Byte := List.replicate n 0
  let left := match x.parked with | some (.watch (some t)) => t - now | _ => 0
  (List.range 64).flatMap (fun n => lanes (x.vreg n)) ++ (List.range 160).flatMap (fun n => leBytes 8 (x.sreg n).toNat)
    ++ (List.range 15).flatMap (fun n => leBytes 4 (x.mask n).toNat) ++ z 4 ++ (List.range 16).flatMap (fun n => lanes (x.accum n))
    ++ (List.range 32).flatMap (fun j => (x.port.cell j).data) ++ (List.range 32).flatMap (fun j => leBytes 2 (x.port.cell j).tag)
    ++ [x.pc, x.trappc, x.trapop, x.trapaddr, x.trapvec, x.emuvec].flatMap (fun w => leBytes 8 w.toNat)
    ++ leBytes 4 x.trapmask.toNat ++ leBytes 4 x.trapem.toNat ++ leBytes 4 x.traplit.toNat ++ leBytes 4 x.trapfut.toNat
    ++ [x.trapd, x.trapa, x.trapb, x.trapc, x.trapcause] ++ leBytes 1 x.fpflags.toNat
    ++ bitBytes 2 (fun i => [x.handling, x.done || x.leaving, x.port.full, baton, x.batonPending || x.loop.any (·.shed), x.watch.isSome, x.wake.isSome].getD i false)
    ++ leBytes 1 (match x.classReq with | some c => 4 + c | none => 0) ++ leBytes 1 (x.wake.getD 0 + 16 * x.waitKind)
    ++ leBytes 2 x.emitted ++ leBytes 4 x.banks.toNat
    ++ bitBytes 40 (fun i => match Tables.get? x.marks (i / 2) with | some (.pending _) => i % 2 == 0 | some (.failed _ _ _) => i % 2 == 1 | none => false)
    ++ bitBytes 8 x.poisonV.contains ++ bitBytes 20 x.poisonS.contains ++ z 4
    ++ leBytes 8 watched.1 ++ leBytes 4 (ofBool watched.2) ++ leBytes 4 left ++ x.waitObject
    ++ (match x.loop with
      | some l => leBytes 8 l.word.toNat ++ leBytes 2 l.k ++ leBytes 1 (l.n + l.grp) ++ leBytes 1 (1 + 2 * ofBool (l.ksteps == 1 && bitsOf l.word 31 20 == 0) + 16 * tyCode l.fmt)
          ++ leBytes 1 l.first ++ z 3 ++ leBytes 4 (l.fut.getD 0).toNat
      | none => z 20)
    ++ z 4 ++ leBytes 8 x.poisonAddr.toNat ++ leBytes 1 (physOf cid) ++ leBytes 1 (planeOf cid) ++ leBytes 1 x.k ++ z 45

/-! ### The block image (R341) -/
/-- Bytes padded with zeros to a length. -/
def padTo (n : Nat) (bs : List Byte) : List Byte := bs ++ List.replicate (n - bs.length) 0
/-- A barrier's 64 bytes: its phase and its arrived bits, by block-wide row index, or in a band by rowid. -/
def Barrier.bytes (b : Barrier) (rows : Option Nat) : List Byte :=
  padTo 64 (leBytes 4 b.phase.toNat ++ bitBytes 32 fun i => b.arrived.any fun k => (match rows with | some n => k % n | none => k) == i)
/-- The shape registers of a Leat operation, as its checks passed them (R231); of an atomic its address, operand and expected value. -/
def LeatOp.shapeBytes (o : LeatOp) : List Byte :=
  let pair (a b : Int) : List Byte := leBytes 4 (wrap 32 a) ++ leBytes 4 (wrap 32 b)
  match o.kind with
  | .atomic _ _ x e => padTo 64 (leBytes 8 (o.gva + 2 ^ 60 * o.reg) ++ leBytes 8 x.toNat ++ leBytes 8 e.toNat)
  | _ => leBytes 8 o.gva ++ leBytes 8 o.lva ++ leBytes 8 (o.e0 + 2 ^ 20 * o.n1 + 2 ^ 40 * o.n2) ++ pair o.gs1 o.gs2 ++ pair o.ls1 o.ls2
      ++ leBytes 8 o.reg ++ leBytes 8 (o.list + 2 ^ 32 * ofBool o.iw) ++ leBytes 8 0
/-- A Leat operation's 128 bytes. -/
def LeatOp.imageBytes (o : LeatOp) : List Byte :=
  padTo 128 (o.shapeBytes ++ leBytes 8 o.word.toNat ++ leBytes 4 o.fut.toNat ++ leBytes 1 (match o.kind with | .fill n _ _ => n | .drain n _ => n | _ => 0))
/-- The cells of a port or of a link entry: data, then scale tags. -/
def cellBytes (cell : Nat → Cell) : List Byte := (List.range 32).flatMap (fun j => (cell j).data) ++ (List.range 32).flatMap fun j => leBytes 2 (cell j).tag
/-- The header's 256 bytes. -/
def State.headerBytes (s : State) (b : Block) : List Byte :=
  padTo 256 (leBytes 2 b.node ++ leBytes 2 b.slot ++ leBytes 4 b.blkid ++ leBytes 4 b.serial ++ leBytes 1 b.prio
    ++ leBytes 1 (ofBool b.hdr.idempotent + 2 * ofBool b.rinit + 4 * ofBool b.rdone + 8 * ofBool b.hdr.handler) ++ leBytes 1 b.spans.length ++ leBytes 1 0
    ++ leBytes 2 b.hdr.rows ++ leBytes 2 b.hdr.bands ++ bitBytes 2 b.closed.contains ++ leBytes 2 0 ++ leBytes 8 b.formed ++ leBytes 8 b.count
    ++ leBytes 8 b.lo ++ leBytes 8 b.hi ++ leBytes 4 ((s.taskOf b).fut.getD 0).toNat)
/-- A grid's sections: descriptor, span, slots, banks, Leat operations, link entries, contexts. -/
def State.gridBytes (s : State) (blk : Nat) (b : Block) (sp : Span) : List Byte :=
  let g := sp.g
  let cids := b.rows.filter fun cid => gridOf cid == g
  let slots := (List.range 32).filter fun n => (s.tile g n).owner == some blk
  let held := (List.range 32).filter fun k => cids.any fun cid => (s.ctx cid).banks.getLsbD k
  let ops := ((s.unsent blk).filter fun e => e.1 == g).map (·.2)
  let links := cids.flatMap fun cid => (s.ctx cid).port.link
  let watched (cid : Nat) : Nat × Bool := match (s.ctx cid).watch with | some w => (w.addr.toNat, w.space.isNone) | none => (0, false)
  padTo 64 (leBytes 1 (s.logical g) ++ leBytes 1 cids.length ++ leBytes 1 slots.length ++ leBytes 1 ops.length ++ bitBytes 4 held.contains
      ++ leBytes 8 sp.base ++ leBytes 8 sp.lim ++ bitBytes 4 slots.contains ++ leBytes 1 links.length)
    ++ s.side.readN (2 ^ 21 * g + sp.base) (sp.lim - sp.base)
    ++ slots.flatMap (fun n => padTo 64 (leBytes 1 (s.tile g n).state ++ leBytes 1 (s.tile g n).fmt ++ leBytes 1 (ofBool (s.tile g n).layB) ++ leBytes 2 (s.tile g n).gen)
      ++ s.slotMem.readN (slotKey g n) 17408)
    ++ held.flatMap (fun k => s.bankMem.readN (bankKey g k) 768) ++ ops.flatMap LeatOp.imageBytes ++ links.flatMap (fun e => cellBytes (cellAt e.2))
    ++ cids.flatMap fun cid => (s.ctx cid).bytes cid (s.grid g).clk ((s.prow (rowOf cid)).baton == some (planeOf cid)) (watched cid)
/-- The bytes of a block's image. -/
def State.blockBytes (s : State) (blk : Nat) (b : Block) : List Byte :=
  s.headerBytes b ++ (List.range 8).flatMap (fun k => (b.barrier (barrierKey none k)).bytes none)
    ++ (List.range b.hdr.bands).flatMap (fun n => (List.range 8).flatMap fun k => (b.barrier (barrierKey (some n) k)).bytes (some b.hdr.rows))
    ++ (sortBy (fun (x y : Span) => decide (s.logical x.g ≤ s.logical y.g)) b.spans).flatMap (s.gridBytes blk b)
/-- The first direct address of the save area of an M-die: its uppermost 16 GiB of HBM4E (log entry 65). -/
def saveBase (m : Nat) : Nat := m * 2 ^ 45 + (2 ^ 37 - 2 ^ 34)
/-- The lowest place of an M-die's save area where n bytes overlap no other image and no retired page (R352). -/
def State.savePlace (s : State) (m n : Nat) : Nat :=
  let used := s.blocks.filterMap fun e => if e.2.phase == .saved && e.2.bin == m then e.2.savedAt else none
  let free (a : Nat) : Bool := (used.all fun u => decide (a + n ≤ u.1) || decide (u.1 + u.2 ≤ a)) && !s.pagesBad a n
  ((sortBy (fun x y => decide (x ≤ y)) (saveBase m :: (used.map (fun u => u.1 + u.2) ++ (s.badPages.map fun p => 4096 * (p + 1)).filter fun a => decide (saveBase m ≤ a)))).find? free).getD (saveBase m)
/-- The image is written to the save area of the M-die of the block's bin (R338 step 7). -/
def State.writeImage (s : State) (blk : Nat) : State :=
  match s.block? blk with
  | none => s
  | some b =>
    let bs := s.blockBytes blk b
    let a := s.savePlace b.bin bs.length
    { s with home := s.home.writeN a bs }.updBlock blk fun x => { x with savedAt := some (a, bs.length) }
/-- Wakes on their way to a block's contexts reach them (R295). -/
def State.wakesNow (s : State) (blk : Nat) : State :=
  let mine := s.wakes.filter fun w => match s.ctx? w.1 with | some x => x.blk == blk | none => false
  mine.foldl (fun (s : State) w => s.deliverWake w.1 w.2.1 w.2.2) { s with wakes := s.wakes.filter fun w => !mine.contains w }

/-- Everything of the block has landed but loops, which stop, and operations that have sent nothing (R338 steps 1 to 4). -/
def State.saveReady (s : State) (blk : Nat) : Bool :=
  (s.ctxsOf blk).all (fun e => e.2.landed && (match e.2.loop with | some l => l.doneAt.isNone | none => true)) && !s.sentLeft blk
/-- The Weir writes the task's bytes on the block's die home (R318). -/
def State.saveFlush (s : State) (blk : Nat) (b : Block) : State :=
  let t := s.flushRegions (b.cluster / 2) b.fn b.hdr.writeRegions
  t.updBlock blk fun x => { x with mark := some t.peerNext }
/-- The image is taken and written, the resources are released, and the block waits to be restored (R338 step 7). -/
def State.saveNow (s : State) (blk : Nat) : State :=
  let s1 := ((s.wakesNow blk).answerThieves blk).writeImage blk
  match s1.block? blk with
  | none => s1
  | some b =>
    let img := s1.withImage blk b
    let s2 := (s1.ctxsOf blk).foldl (fun (s : State) e =>
      let sr := match e.2.loop with | some l => s.returnBuckets (gridOf e.1) l.held | none => s
      (sr.updCtx e.1 fun x => { x with loop := none }).vacate e.1) s1
    let s3 := (s2.unsent blk).foldl (fun (s : State) e => s.returnBuckets e.1 e.2.buckets) (s2.dropUnsent blk)
    let s4 : State := { s3 with grids := s3.grids.map fun (e : Nat × Grid) => (e.1, e.2.disown blk) }
    ((s4.unask blk).setBlock blk { img with phase := .saved, takers := [], requests := [], stealing := none, asked := [], mark := none }).requeue blk b.bin
/-- BLOCK_SAVE (R338): once everything has landed the Weir flushes; when its writes are acknowledged at home the image is taken and the
resources are released, reserved for the block's restore. -/
def execBlockSave (blk : Nat) (s : State) : Out :=
  .next (match s.block? blk with
    | none => s
    | some b =>
      if b.phase ≠ .stopping false then s
      else
        let s0 := s.holdBlock blk
        if !s0.saveReady blk then s0
        else
          let s1 := if b.mark.isNone then s0.saveFlush blk b else s0
          match (s1.block? blk).bind (·.mark) with
          | some m => if s1.backTo m then s1.saveNow blk else s1
          | none => s1)
/-- BLOCK_RESTORE (R339): a saved block goes back where it came from, when it is the block that its M-die's offers come to (R55, R56). -/
def execBlockRestore (blk : Nat) (s : State) : Out :=
  .next (match s.block? blk with
    | none => s
    | some b =>
      if b.phase ≠ .saved ∨ s.placedNow b.bin then s
      else
        let s0 := s.noteAll b.bin
        match s0.choose b.bin (s.readyOrder b.bin) with
        | some w => if w.1 = blk then s0.takeOffer b.bin w else s
        | none => s)

/-! ### Migration (R342 to R345) -/
/-- Temperatures in sixteenths of a degree. -/
def degrees (n : Nat) : Int := 16 * n
/-- A target for a hot grid (R342): empty, unreserved, below 85 °C; the coolest. Nor is it a grid on which the placer places nothing: of one retired
from placement R342 does not say whether it may be a target (log entry 118). -/
def State.migrationTarget (s : State) (g : Nat) : Option Nat :=
  let c := clusterOf g
  let ok (t : Nat) : Bool := t != g && s.usable t && s.gridIdle t && !((s.grid t).tiles.any fun e => e.2.owner.isSome) && (s.spansOn t s.nextBlock).isEmpty
    && decide ((s.grid t).temp.toInt < degrees 85) && (s.grid t).migration.isNone
  ((List.range 24).filterMap fun i => if ok (24 * c + i) then some (24 * c + i) else none).foldl (fun acc t => match acc with
    | none => some t
    | some a => if (s.grid t).temp.toInt < (s.grid a).temp.toInt then some t else some a) none
/-- Choose and wake a target for a request that has none. -/
def State.retarget (s : State) (g : Nat) : State :=
  match (s.grid g).migration with
  | none => s
  | some m => if m.target.isSome then s else match s.migrationTarget g with
    | none => s
    | some t => (s.wakeGrid t).updGrid g fun x => { x with migration := some { m with target := some t } }
/-- A context that no start action and no pre-emption holds. -/
def State.mayRun (s : State) (cid : Nat) (x : Ctx) : Bool :=
  let b := s.blockOf x
  (match b.phase with | .resident | .draining _ => true | _ => false) && (s.taskOf b).started.contains (dieOf (gridOf cid))
/-- Lift the holds of a migration on a grid. -/
def State.unhold (s : State) (g : Nat) : State := s.mapCtxs fun cid x => if gridOf cid = g ∧ s.mayRun cid x then { x with held := false } else x
/-- SENSOR_UPDATE (R342, R350): a reading; at 95 °C a request, below 90 °C its withdrawal, at 105 °C the hold at class 0
until below 100 °C. A gated grid keeps its last reading; in recovery no grid has power to read (R353). -/
def execSensorUpdate (g : Nat) (temp : BitVec 16) (s : State) : Out :=
  .next (
    let x := s.grid g
    if x.gated || s.recovery then s
    else
      let t := temp.toInt
      let hot := if degrees 105 ≤ t then true else if t < degrees 100 then false else x.hot
      let s1 := s.setGrid g { x with temp := temp, tempValid := true, hot := hot }
      let s2 := match x.migration with
        | none => if degrees 95 ≤ t then s1.updGrid g fun y => { y with migration := some { since := x.clk } } else s1
        | some m => if t < degrees 90 ∧ !m.captured then (s1.updGrid g fun y => { y with migration := none }).unhold g else s1
      (s2.retarget g).reclass g)
/-- A context of a grid under a request may be held now: it is parked, or it is at mpoint or between chains with no loop in flight (R344). -/
def State.holdable (s : State) (cid : Nat) (x : Ctx) : Bool := x.parked.isSome || (x.loop.isNone && !s.inChain cid)
/-- MIGRATION_CAPTURE (R344): a request that has no target looks for one; from the request on, contexts at a place where they can be
held are held, but while the holds are lifted; when that is all of them, none with a loop in flight (log entry 66), and there is a target, the
grid is captured, whether the holds are lifted or not. -/
def execMigrationCapture (g : Nat) (s : State) : Out :=
  .next (
    let s0 := match (s.grid g).migration with | some m => if m.target.isNone then (s.retarget g).reclass g else s | none => s
    match (s0.grid g).migration with
    | none => s0
    | some m =>
      let here := s0.ctxs.filter fun e => gridOf e.1 == g
      let any := here.any fun e => s0.holdable e.1 e.2
      let all := here.all fun e => s0.holdable e.1 e.2 && e.2.loop.isNone
      if m.captured || (m.lifted.isSome && !(all && m.target.isSome)) then s0
      else
        let s1 := s0.mapCtxs fun cid x => if gridOf cid = g ∧ s0.holdable cid x then { x with held := true } else x
        s1.updGrid g fun y => { y with migration := some { m with captured := all && m.target.isSome, heldFrom := match m.heldFrom with | some t => some t | none => if any then some y.clk else none } })
/-- A grid under a request that satisfies a test. -/
def State.dueMigration (s : State) (p : Grid → Migration → Bool) : Option (Nat × Grid × Migration) :=
  s.grids.findSome? fun e => match e.2.migration with | some m => if p e.2 m then some (e.1, e.2, m) else none | none => none
/-- MIGRATION_HOLD_LIFT (R344): 4,096 cycles without capture. -/
def execMigrationHoldLift (s : State) : Out :=
  .next (match s.dueMigration fun x m => !m.captured && m.lifted.isNone && (match m.heldFrom with | some t => decide (t + 4096 ≤ x.clk) | none => false) with
    | some (g, x, m) => (s.setGrid g { x with migration := some { m with lifted := some x.clk, heldFrom := none } }).unhold g
    | none => s)
/-- MIGRATION_HOLD_RETAKE (R344): 4,096 cycles later the holds may be taken again. -/
def execMigrationHoldRetake (s : State) : Out :=
  .next (match s.dueMigration fun x m => !m.captured && (match m.lifted with | some t => decide (t + 4096 ≤ x.clk) | none => false) with
    | some (g, x, m) => s.setGrid g { x with migration := some { m with lifted := none } }
    | none => s)
/-- MIGRATION_CAPTURE_TIMEOUT (R344): a request not captured within 2^20 grid cycles puts the grid at class 0. -/
def execMigrationCaptureTimeout (s : State) : Out :=
  .next (match s.dueMigration fun x m => !m.captured && !m.timedOut && decide (m.since + 2 ^ 20 ≤ x.clk) with
    | some (g, x, m) => (s.setGrid g { x with migration := some { m with timedOut := true } }).reclass g
    | none => s)

/-- A context slot, and a grid, after the move from g to t. -/
def movedCid (g t cid : Nat) : Nat := if gridOf cid = g then 128 * t + cid % 128 else cid
def movedGrid (g t h : Nat) : Nat := if h = g then t else h
def movedSpace (g t : Nat) : Space → Space
  | .side h => .side (movedGrid g t h)
  | sp => sp
/-- A time to come of the old grid's clock on the new one's. -/
def retime (old new n : Nat) : Nat := n + new - old
/-- A port with its times on the new clock. -/
def Ctx.retimePort (x : Ctx) (old new : Nat) : Ctx :=
  { x with port := { x.port with pushed := retime old new x.port.pushed, link := x.port.link.map fun e => (retime old new e.1, e.2) } }
/-- A moved context (R345 steps 5 and 6): its times on the new clock, its watch renamed, with a wake of reason 3, as a context elsewhere
gets that watches a line of the grid (R296); what its edge link holds takes the hand-off of the new path, lag, for that of the old. -/
def Ctx.moved (x : Ctx) (g t old new : Nat) (mine : Bool) (lag : Nat × Nat) : Ctx :=
  let re (n : Nat) := if mine then retime old new n else n
  let watch := x.watch.map fun w => { w with space := w.space.map (movedSpace g t) }
  let touched := mine || (match x.watch with | some w => w.space == some (.side g) | none => false)
  let parked := match x.parked with
    | some (.watch d) => if touched then none else some (.watch (d.map re))
    | p => p
  { x with watch := watch, wake := if touched then mergeWake x.wake 3 else x.wake, parked := parked
           notBefore := re x.notBefore, yieldedUntil := x.yieldedUntil.map re, repollAt := x.repollAt.map re
           stores := x.stores.map fun st => { st with due := re st.due, left := re st.left, bytes := st.bytes.map fun e => (movedSpace g t e.1, e.2) }
           inflight := x.inflight.map fun r => { r with lines := r.lines.map fun e => (movedGrid g t e.1, e.2) }
           port := { x.port with pushed := re x.port.pushed, link := x.port.link.map fun e => (re e.1 + lag.2 - lag.1, e.2) }
           stage := match x.stage with
             | .waitingSince c past => if mine then .waitingSince new (past + (old - c)) else .waitingSince c past
             | .walking until_ => .walking (re until_)
             | .lost until_ line => .lost (re until_) line
             | .arming due sp line => .arming (re due) (sp.map (movedSpace g t)) line
             | .atPoint v => if mine then .atPoint (some true) else .atPoint v
             | st => st }
/-- The hand-off (R3) of the edge link that leaves a context, before a renaming of contexts and after it. -/
def State.linkLags (s : State) (ren : Nat → Nat) (cid : Nat) (x : Ctx) : Nat × Nat :=
  match (s.blockOf x).rows[x.k + 1]? with
  | some below => ((handoff cid below).1, (handoff (ren cid) (ren below)).1)
  | none => (0, 0)
/-- The entries of owned slots, put among another grid's (R345 step 3). -/
def ownedOver (x y : Tbl Tile) : Tbl Tile := (x.filter fun e => e.2.owner.isSome).foldl (fun t e => Tables.set e.1 e.2 t) y
/-- The grid's contents at the target, and the emptied grid. -/
def Grid.take (x y : Grid) (re : LeatOp → LeatOp) : Grid :=
  { y with rcache := [], icache := [], fills := [], tiles := ownedOver x.tiles y.tiles, autoRel := x.autoRel, reqs := x.reqs, freed := [], gated := false
           leat := y.leat ++ x.leat.map re, nextOp := max x.nextOp y.nextOp, filter := y.filter ++ x.filter, idle := 0 }
def Grid.vacated (x : Grid) : Grid :=
  { x with rcache := [], icache := [], fills := [], leat := [], filter := [], autoRel := [], topups := [], reqs := [], migration := none, idle := 0
           tiles := x.tiles.map fun e => if e.2.owner.isSome then (e.1, { e.2 with state := 0, owner := none, gen := (e.2.gen + 1) % 65536 }) else e }
/-- The move of everything resident on grid g to grid t of its cluster (R343, R345). -/
def State.moveGrid (s : State) (g t : Nat) : State :=
  let x := s.grid g
  let y := s.grid t
  let old := x.clk
  let new := y.clk
  let ren (cid : Nat) := movedCid g t cid
  let spans := s.blocks.flatMap fun e => e.2.spans.filter fun sp => sp.g == g
  let inSpan (o : Nat) : Bool := spans.any fun sp => decide (sp.base ≤ o) && decide (o < sp.lim)
  -- side memory with its last writers, slots and bank state
  let side := spans.foldl (fun m sp => m.paste (2 ^ 21 * t + sp.base) (sp.lim - sp.base) (s.side.slice (2 ^ 21 * g + sp.base) (sp.lim - sp.base))) s.side
  let clean := s.sideWriter.filter fun e => !(decide (2 ^ 19 * t ≤ e.1) && decide (e.1 < 2 ^ 19 * (t + 1)))
  let writers := (s.sideWriter.filter fun e => decide (2 ^ 19 * g ≤ e.1) && decide (e.1 < 2 ^ 19 * (g + 1)) && inSpan (4 * (e.1 - 2 ^ 19 * g))).foldl
    (fun w e => Tables.set (e.1 - 2 ^ 19 * g + 2 ^ 19 * t) (movedGrid g t e.2) w) clean
  let slotMem := (x.tiles.filter fun e => e.2.owner.isSome).foldl (fun m e => m.paste (slotKey t e.1) 17408 (s.slotMem.slice (slotKey g e.1) 17408)) s.slotMem
  let bankMem := s.bankMem.paste (bankKey t 0) 32768 (s.bankMem.slice (bankKey g 0) 32768)
  -- filters, by context and with fresh references
  let fresh (f : FilterEntry) (sp : Space) : FilterEntry := { f with cid := ren f.cid, reference := if gridOf f.cid = g ∨ sp = .side t then ({ s with side := side }).readSpace sp (64 * f.line) 64 else f.reference }
  let opRe (o : LeatOp) : LeatOp := { o with cid := ren o.cid, beats := o.beats.map fun b => { b with expires := retime old new b.expires } }
  let grids0 := Tables.set g x.vacated (Tables.set t (Grid.take x y opRe) s.grids)
  let grids1 : Tbl Grid := grids0.map fun (e : Nat × Grid) => (e.1, { e.2 with
    filter := e.2.filter.map fun f => fresh f (.side e.1)
    rcache := if e.1 = g ∨ e.1 = t then e.2.rcache else e.2.rcache.filter fun l => !(decide (2 ^ 15 * g ≤ l.1) && decide (l.1 < 2 ^ 15 * (g + 1)))
    badLines := e.2.badLines })
  let cdies : Tbl CDie := s.cdies.map fun (e : Nat × CDie) => (e.1, { e.2 with filter := e.2.filter.map fun f => fresh f (.scratch e.1) })
  let mdies : Tbl MDie := s.mdies.map fun (e : Nat × MDie) => (e.1, { e.2 with filter := e.2.filter.map fun f =>
    { f with cid := ren f.cid, reference := if gridOf f.cid = g then s.home.readN (64 * f.line) 64 else f.reference } })
  -- contexts and the physical rows' Batons
  let ctxs := s.ctxs.foldl (fun (tb : Tbl Ctx) e => Tables.set (ren e.1) (e.2.moved g t old new (gridOf e.1 == g) (s.linkLags ren e.1 e.2)) tb) []
  let prows := (List.range 32).foldl (fun (tb : Tbl PhysRow) r =>
    let p := s.prow (32 * g + r)
    Tables.set (32 * g + r) {} (Tables.set (32 * t + r) { p with valid := 0, buf := none, chain := none, chainStall := 0, lastStep := none, lastDone := none, issuedAt := none, found := none, sfuLast := none } tb)) s.prows
  let blocks : Tbl Block := s.blocks.map fun (e : Nat × Block) => (e.1, { e.2 with
    rows := e.2.rows.map ren, takers := e.2.takers.map ren, requests := e.2.requests.map fun r => { r with cid := ren r.cid, due := if e.2.rangeOn g then retime old new r.due else r.due }
    image := e.2.image.map fun l => (e.2.rows.zip l).map fun x => { (if gridOf x.1 = g then x.2.retimePort old new else x.2) with
      watch := x.2.watch.map fun w => { w with space := w.space.map (movedSpace g t) } }
    imageRel := e.2.imageRel.map fun i => (movedGrid g t i.1, i.2.1, i.2.2.map ren)
    spans := e.2.spans.map fun sp => { sp with g := movedGrid g t sp.g }
    imageMem := e.2.imageMem.map fun i => (movedGrid g t i.1, i.2), imageTiles := e.2.imageTiles.map fun i => (movedGrid g t i.1, i.2)
    imageBanks := e.2.imageBanks.map fun i => (movedGrid g t i.1, i.2), imageLeat := e.2.imageLeat.map fun i => (movedGrid g t i.1, { i.2 with cid := ren i.2.cid }) })
  let s1 : State := { s with
    side := side, sideWriter := writers, slotMem := slotMem, bankMem := bankMem, grids := grids1, cdies := cdies, mdies := mdies, ctxs := ctxs, prows := prows, blocks := blocks
    wakes := s.wakes.map fun w => (ren w.1, w.2), flushes := s.flushes.map fun w => { w with cid := ren w.cid, ops := w.ops.map fun o => (movedGrid g t o.1, o.2) } }
  -- the map's two entries change places
  let swap (p : Nat) : Nat := if p = posOf g then posOf t else if p = posOf t then posOf g else p
  ((s1.updCluster (clusterOf g) fun c => { c with map := c.map.map swap }).unhold t).reclass g
/-- MIGRATION_MOVE_DONE (R345): the first captured grid whose results and stores have landed, with no loop in flight, and whose target is
awake. -/
def execMigrationMoveDone (s : State) : Out :=
  .next (
    let ready (g : Nat) (t : Nat) : Bool := (s.ctxs.all fun e => gridOf e.1 != g || (e.2.inflight.isEmpty && e.2.stores.isEmpty && e.2.pendingTrap.isNone && e.2.bankOps.isEmpty && e.2.loop.isNone))
      && (s.grid t).warm == 0
    match s.grids.findSome? fun e => match e.2.migration with
      | some m => if m.captured then m.target.bind fun t => if ready e.1 t then some (e.1, t) else none else none
      | none => none with
    | some (g, t) => s.moveGrid g t
    | none => s)

end Sys2Proof.Machine
end

