-- ==== Sys2Proof/Machine/Restart.lean ====
section
/-! DEFINITION. Whole-task restarts (R319, R355), failed parts and the three resets (R44, R353, R357): the meanings of
PART_FAILURE, WARM_RESET, COLD_RESET and VF_FLR. -/
namespace Sys2Proof.Machine

/-! ### Restarting a task whole (R319, R355) -/
/-- A block as it was formed: nothing of its attempts is left. -/
def Block.afresh (b : Block) : Block :=
  { b with phase := .ready, savedAt := none, mark := none, requests := [], cluster := 0, spans := [], rows := [], barriers := [], lo := 0, hi := 0, hasRange := false, rinit := false, stealing := none
           takers := [], asked := [], count := 0, rdone := false, closed := [], image := none, savedFor := none, imageMem := [], imageTiles := []
           imageBanks := [], imageLeat := [], imageRel := [], failed := none, passedFrom := if b.phase = .ready then b.passedFrom else none }
/-- What is in flight for a block goes: its engine operations, its futures, its records held, its contexts; their buckets return. -/
def State.dropBlock (s : State) (b : Nat) : State :=
  let ops := s.grids.flatMap fun e => (e.2.leat.filter fun o => o.blk == b).map fun o => o.fut
  let s0 := s.grids.foldl (fun (t : State) e => t.returnBuckets e.1 ((e.2.leat.filter fun o => o.blk == b).map (·.buckets)).sum) s
  let s1 : State := { s0 with grids := s0.grids.map fun (e : Nat × Grid) => (e.1, { e.2 with leat := e.2.leat.filter fun o => o.blk != b })
                              flushes := s0.flushes.filter fun w => w.blk != b }
  let s2 := (ops ++ s1.softPending b).foldl (fun (s : State) h => s.settle h 4 0 9) s1
  ((s2.releaseBlock b).freeOwned b)
/-- Every block of the task, retired or not, is queued again; held records and dirty bytes of the attempt go; regions that
rdone closed are open again. -/
def State.restartTask (s : State) (t : Nat) (loseFuture : Bool) : State :=
  match s.task? t with
  | none => s
  | some tk =>
    let mine := s.blocks.filter fun e => e.2.task == t
    let dropped := s.journal.filter fun h => h.task == t
    let s1 := dropped.foldl (fun (s : State) h => match h.fut with | some hd => s.settle hd 3 7 9 | none => s) { s with journal := s.journal.filter fun h => h.task != t }
    let s2 := mine.foldl (fun (s : State) e => s.dropBlock e.1) s1
    let s3 := s2.weirDiscard t
    let s4 := if tk.failed.isSome then mine.foldl (fun (s : State) e => s.updBlock e.1 fun b => { b.afresh with phase := .retired }) s3
      else mine.foldl (fun (s : State) e => (s.updBlock e.1 fun b => b.afresh).requeue e.1 e.2.bin) s3
    s4.setTask t { tk with retired := 0, dies := [], started := [], starting := [], held := false, finishing := none, closing := [], active := false, fut := if loseFuture then none else tk.fut }

/-! ### Failed parts (R355) -/
/-- Unfinished tasks with a block on a die. -/
def State.tasksOn (s : State) (d : Nat) : List Nat :=
  (s.tasks.filter fun e => !e.2.finished && (e.2.dies.contains d
    || s.blocks.any fun b => b.2.task == e.1 && b.2.cluster / 2 == d && (match b.2.phase with | .ready | .retired => false | _ => true))).map (·.1)
/-- Requests in flight from C-die a to M-die b are lost with the link between them (R355): beats, fills that the die cache does not serve,
monitors, walks. None is answered; each times out 2^20 cycles after its issue (R216). -/
def State.loseLink (s : State) (a b : Nat) : State :=
  let there (pa : Nat) : Bool := match s.homeOf pa with | some h => mdieOf h == b | none => false
  let beat (g : Nat) (o : LeatOp) (x : Beat) : Beat := if x.kind == 0 && there x.target && x.crosses s g o then { x with lost := true } else x
  let fill (f : Fill) : Fill := if mdieOf f.addr == b && !f.lost && !codeCached s a f.fn f.line f.target then { f with lost := true, due := f.due - 1 + 2 ^ 20 } else f
  let mon (x : Ctx) : Ctx := match x.stage with
    | .arming due none line => if there (64 * line) then { x with stage := .lost (due - 1 + 2 ^ 20) line } else x
    | _ => x
  let gone (x : CDie) (w : Nat × Nat × Nat) : Bool := (walkReads s w.1 (4096 * w.2.1)).any there && !x.lostWalks.contains (w.1, w.2.1)
  { s with
    badLinks := if s.badLinks.contains (a, b) then s.badLinks else s.badLinks ++ [(a, b)]
    ctxs := Tables.mapVal (fun cid x => if dieOf (gridOf cid) = a then mon x else x) s.ctxs
    grids := s.grids.map fun (e : Nat × Grid) => if dieOf e.1 = a then (e.1, { e.2 with
      leat := e.2.leat.map fun o => { o with beats := o.beats.map (beat e.1 o) }, fills := e.2.fills.map fill }) else e
    cdies := s.cdies.map fun (e : Nat × CDie) => if e.1 = a then (e.1, { e.2 with
      walks := e.2.walks.map fun w => if gone e.2 w then (w.1, w.2.1, w.2.2 - 1 + 2 ^ 20) else w
      lostWalks := e.2.lostWalks ++ (e.2.walks.filter (gone e.2)).map fun w => (w.1, w.2.1) }) else e }
/-- The tasks that lost requests have touched restart whole (R355). -/
def State.restartLost (s : State) : State :=
  s.lostTasks.foldl (fun (s : State) t => match s.task? t with
    | some k => if k.finished then s else s.restartTask t false
    | none => s) { s with lostTasks := [] }
/-- A future of a task that lies on a die. -/
def futureOn (fut : Option Word32) (d : Nat) : Bool := match fut with | some h => handleCluster h / 2 == d | none => false
/-- The bytes forwarded to a die go home before it is lost with its cache: the work of the tasks that wrote them is done and must not be lost (R44),
and no rule says what becomes of them (log entry 123). -/
def State.saveForwarded (s : State) (d : Nat) : State :=
  (s.cdie d).dcache.foldl (fun (s : State) e => s.flushLine d e.1 e.2.tagged) s
/-- PART_FAILURE (R355). -/
def execPartFailure (part : Part) (s : State) : Out :=
  .next (match part with
    | .cdie d =>
      let hit := s.tasksOn d
      let s1 := hit.foldl (fun (s : State) t => s.restartTask t (match s.task? t with | some k => futureOn k.fut d | none => false)) s
      let s2 := (List.range 4).foldl (fun (s : State) m => match (s.mdie m).anchor with
        | some b => if [2 * d, 2 * d + 1].any fun c => (s.cluster c).closed == some m then s.unanchor m b else s
        | none => s) s1
      (s2.saveForwarded d).updCdie d fun x => { x with failed := true, steal := none, dcache := [], walks := [], walkFails := [], lostWalks := [] }
    | .link a b => s.loseLink a b
    | .ualPort p => if ualPorts ≤ p then s else
      let sent := s.invoked.filter fun i => i.sent.isSome
      let s1 : State := { s with badPorts := if s.badPorts.contains p then s.badPorts else s.badPorts ++ [p]
                                 invoked := s.invoked.map fun i => if i.sent.isSome then { i with sent := some s.xclk } else i }
      sent.foldl (fun (s : State) i => s.linkOut (i.h.acc.getD 0) (recBytes i.h.r)) s1
    | .journal m => s.updMdie m fun x => { x with journalFailed := true }
    | .reduction => { s with badReduction := true }
    | .stack i => ({ s with badStacks := if s.badStacks.contains i then s.badStacks else s.badStacks ++ [i] }).dropLostRecs)

/-! ### Resets (R357) -/
/-- What a grid keeps through a warm reset: its clock, and the faults of its silicon. -/
def Grid.afterReset (x : Grid) : Grid :=
  { clk := x.clk, frac := x.frac, remapped := x.remapped, badLines := x.badLines, retired := x.retired, retireAtIdle := x.retireAtIdle, winStart := x.clk }
def CDie.afterReset (x : CDie) : CDie := { clk := x.clk, failed := x.failed, remapped := x.remapped, badLines := x.badLines }
def Cluster.afterReset (c : Cluster) (clk : Nat) : Cluster := { target := c.target, tick := clk }
def MDie.afterReset (x : MDie) : MDie :=
  { clk := x.clk, launch := x.launch, laps := x.laps, inserts := x.inserts, bins := x.bins, ready := x.ready, journalFailed := x.journalFailed,
    remapped := x.remapped, badLines := x.badLines }
def Func.afterReset (x : Func) : Func := { slotBase := x.slotBase, slotCount := x.slotCount, scrBase := x.scrBase, scrCount := x.scrCount, ptroot := x.ptroot }
/-- Tasks active at the reset: those with a block that has been placed. -/
def State.activeTasks (s : State) : List Nat :=
  (s.tasks.filter fun e => !e.2.finished && (e.2.active || s.blocks.any fun b => b.2.task == e.1 && b.2.phase != .ready)).map (·.1)
/-- Everything a warm reset loses, with the tasks that were active restarted whole. The future tables go, so an invocation that is still to be
answered names no future any more. -/
def State.warmReset (s : State) : State :=
  let s1 := s.activeTasks.foldl (fun (s : State) t => s.restartTask t true) s
  { s1 with
    cur := none, agenda := [], verdict := 0, side := [], scratch := [], slotMem := [], bankMem := [], sideWriter := [], scratchWriter := [], ctxs := [], prows := []
    grids := Tables.mapVal (fun _ x => x.afterReset) s1.grids
    cdies := Tables.mapVal (fun _ x => x.afterReset) s1.cdies
    clusters := Tables.mapVal (fun c x => x.afterReset (s1.cdie (c / 2)).clk) s1.clusters
    mdies := Tables.mapVal (fun _ x => x.afterReset) s1.mdies
    funcs := Tables.mapVal (fun _ x => x.afterReset) s1.funcs
    tasks := Tables.mapVal (fun _ t => { t with fut := none, counted := false }) s1.tasks
    xgated := false, wakes := [], flushes := [], peerWrites := [], heldBacks := [], fenceOrder := 0, wovlHeld := 0, dsplitLocked := false, pwr := 0, lostTasks := []
    invoked := s1.invoked.map fun i => { i with h := { i.h with fut := none } }
    ecntDrop := 0, ecntLast := 0, ecntTrans := 0 }
/-- Secure boot (R353): the image's signature holds under the fused key, and its security version is not below the fused counter. -/
def bootOk (b : Signature × Nat) : Bool := b.1.valid && b.1.keyFused && decide (Config.rollbackCounter ≤ b.2)
/-- WARM_RESET (R353, R357): the image in flash boots again. -/
def execWarmReset (s : State) : Out := .next { s.warmReset with recovery := !s.flash.all bootOk }
/-- COLD_RESET (R353, R357): every state but the fused goes; what the outside world does next, what was sent out, and this
device's place in its pod stand outside the device. -/
def execColdReset (signed : Signature) (version : Nat) (s : State) : Out :=
  .next { State.reset with inputs := s.inputs, out := s.out, draws := s.draws, accId := s.accId, flash := some (signed, version), recovery := !bootOk (signed, version) }
/-- A kick of function fn that waits to be accepted (R210). -/
def isKickOf (fn : Nat) : Instr → Bool
  | .kick f _ _ _ => f == fn
  | _ => false
/-- VF_FLR (R357): the VF's RW registers return to reset and its kicks that wait go (log entry 104); its work continues. -/
def execVfFlr (v : Nat) (s : State) : Out :=
  .next (if 16 ≤ v then s
    else { s with heldReqs := s.heldReqs.filter fun i => !isKickOf (1 + v) i }.updFunc (1 + v) fun x => { x with winbase := 0, upSlot := 0, commit := none })

end Sys2Proof.Machine
end

