-- ==== Sys2Proof/Machine/Host.lean ====
section
/-! DEFINITION. What the host does (R26 to R34) and what comes from a peer's memory port: the meanings of KICK, UPLOAD_COMMIT,
UPLOAD_COPY_VALIDATE, VFSLOT_WRITE, HOST_BAR2_ACCESS, HOST_CXL_MEM_ACCESS and FABRIC_MEMORY_REQUEST. -/
namespace Sys2Proof.Machine

/-! ### Kicks (R30 to R32) -/
/-- A posted write of function fn that waits: through BAR2, or a kick. -/
def isWriteOf (fn : Nat) : Instr → Bool
  | .hostBar2Access f _ (.write _) => f == fn
  | .kick f _ _ _ => f == fn
  | _ => false
/-- n bytes at a VA of a function, read at home page by page; bytes that another device or the host holds are those given.
None where a page cannot be read. -/
def readVa (s : State) (fn va : Nat) (remote : List Byte) : Nat → Nat → Option (List Byte)
  | _, 0 => some []
  | i, n + 1 =>
    let b : Option Byte := match s.vaTrans fn (va + i) with
      | .ok kind target r _ _ =>
        if !r then none
        else if kind = 0 then (match s.homeOf target with | some a => if s.memBad a then none else some (s.home.read a) | none => none)
        else remote[i]?
      | _ => none
    match b, readVa s fn va remote (i + 1) n with
    | some x, some xs => some (x :: xs)
    | _, _ => none
/-- The bytes of a patch table: none where they cannot be read (status 0x02). -/
def patchTable (s : State) (fn va : Nat) (remote : List Byte) : Option (List Byte) :=
  match readVa s fn va remote 0 16 with
  | none => none
  | some h =>
    let count := leNat (h.take 2)
    if 1024 < count then some h else readVa s fn va remote 0 (16 + 16 * count)
/-- Replays of a slot that are running. -/
def State.running (s : State) (slot : Nat) : Nat := (s.replays.filter fun e => e.2.slot == slot).length
/-- What a kick of a loaded slot comes to: the patched image, or the status and detail of its refusal (R32, R33). -/
def kickImage (s : State) (fn slot ptab : Nat) (remote : List Byte) : Except (Nat × Nat) Mem :=
  let image := (s.slot slot).image
  let patched : Except (Nat × Nat) Mem :=
    if ptab = 0 then .ok image
    else if 2 ^ 52 ≤ ptab then .error (2, 0)
    else match patchTable s fn ptab remote with
      | none => .error (2, 0)
      | some t => match Image.applyPatches image t with | none => .error (3, 0) | some m => .ok m
  match patched with
  | .error e => .error e
  | .ok m => match Image.check m with
    | some f => .error (4, f.code % 256)
    | none => if 16 ≤ s.running slot then .error (7, 0) else .ok m
/-- A refused kick in KSTAT (R32). -/
def State.refuse (s : State) (fn slotRel status : Nat) : State :=
  s.updFunc fn fun x => { x with nref := min (x.nref + 1) (2 ^ 32 - 1), refSlot := slotRel, refStatus := status }
/-- The seeded nodes without predecessors. -/
def firstNodes (ns : List Node) : List Nat :=
  (List.range ns.length).filter fun k => !(ns.getD k {}).handler && (predsOf ns k).isEmpty && (ns.getD k {}).seedcount != 0
/-- A replay starts (R23): its seeded nodes without predecessors place their records at once; one with no seeded nodes is over with its
kick. -/
def State.startReplay (s : State) (fn slot kick : Nat) (image : Mem) : State :=
  let count := (s.kickCount + 1) % 2 ^ 32
  let r := s.nextReplay
  let s0 := { s with kickCount := count, nextReplay := r + 1 }
  if (Image.nodes image).all (·.handler) then s0.reportReplay fn image (some (completionWord 0 0 (slot - (s.func fn).slotBase) kick))
  else
  let s1 := s0.setReplay r { fn := fn, slot := slot, kick := kick, count := count, image := image }
  let ns := Image.nodes image
  (firstNodes ns).foldl (fun (s : State) k => s.startNode r k) s1
/-- An access to one of n bytes at a VA of a function, or the walk to one, waits while the interleave table is rewritten (R210). -/
def State.vaHeld (s : State) (fn va n : Nat) : Bool :=
  (List.range n).any fun i => s.walkWaits fn (va + i) || match s.vaTrans fn (va + i) with | .ok 0 t _ _ _ => s.heldPa t | _ => false
/-- The patch table cannot be read yet. -/
def State.patchHeld (s : State) (fn va : Nat) (remote : List Byte) : Bool :=
  s.vaHeld fn va 16 || match readVa s fn va remote 0 16 with
    | none => false
    | some h => decide (leNat (h.take 2) ≤ 1024) && s.vaHeld fn va (16 + 16 * leNat (h.take 2))
/-- A kick waits in a rewrite of the interleave table: for an earlier posted write of its function, an earlier kick among them (R28), and for what it
reads (R210): its patch table, and where its first records go. -/
def State.kickHeld (s : State) (fn bytes : Nat) (value : Word64) (remote : List Byte) : Bool :=
  let rel := bitsOf value 11 0
  let slot := (s.func fn).slotBase + rel
  let ptab := bitsOf value 63 12 * 4096
  s.itbusy && (s.heldReqs.any (isWriteOf fn)
    || (bytes == 8 && decide (rel < (s.func fn).slotCount) && (s.slot slot).code == 0
        && ((ptab != 0 && s.patchHeld fn ptab remote) || match kickImage s fn slot ptab remote with
          | .ok m => (firstNodes (Image.nodes m)).any fun k => s.seedsHeld fn (Image.node m k)
          | .error _ => false)))
/-- KICK (R30): a write of so many bytes; remote are the patch table's bytes where a peer or the host holds them. One of more than 8 bytes is
refused as a narrower one is (log entry 107). -/
def execKick (fn bytes : Nat) (value : Word64) (remote : List Byte) (s : State) : Out :=
  .next (
    if s.recovery then s
    else if s.kickHeld fn bytes value remote then { s with heldReqs := s.heldReqs ++ [.kick fn bytes value remote] }
    else if bytes ≠ 8 then s.refuse fn 0 8
    else
      let rel := bitsOf value 11 0
      let fu := s.func fn
      if fu.slotCount ≤ rel then s.refuse fn rel 1
      else
        let slot := fu.slotBase + rel
        let kick := ((s.slot slot).kick + 1) % 2 ^ 32
        let s1 := s.updSlot slot fun x => { x with kick := kick }
        if (s.slot slot).code ≠ 0 then s1.refuse fn rel 1
        else match kickImage s1 fn slot (bitsOf value 63 12 * 4096) remote with
          | .error e =>
            let image := (s.slot slot).image
            (s1.refuse fn rel e.1).reportReplay fn image (some (completionWord e.1 e.2 rel kick))
          | .ok m => s1.startReplay fn slot kick m)

/-! ### Uploads (R29) and the slot ranges (R27) -/
/-- UPCTL (R29): slot in bits [11:0], commit in bit 12; the first commit locks DSPLIT (R203). The slot field takes the number even where
the commit is discarded (log entry 87). -/
def execUploadCommit (fn : Nat) (value : Word64) (s : State) : Out :=
  .next (
    let fu := s.func fn
    if s.recovery || fu.commit.isSome then s
    else
      let rel := bitsOf value 11 0
      let s1 := s.setFunc fn { fu with upSlot := rel }
      if !value.getLsbD 12 || decide (fu.slotCount ≤ rel) then s1
      else
        let slot := fu.slotBase + rel
        let s2 := { s1 with dsplitLocked := true }
        (s2.updSlot slot fun x => { x with code := 0xFF, badoff := 0, badnode := 0xFFFF }).setFunc fn { fu with upSlot := rel, commit := some slot })
/-- The upload done, every instruction cache and every clean die-cache line of the package goes (R91). -/
def State.uploadInvalidate (s : State) : State :=
  { s with grids := Tables.mapVal (fun _ g => { g with icache := [], fills := g.fills.map fun l => { l with discard := true } }) s.grids
           cdies := Tables.mapVal (fun _ d => { d with dcache := d.dcache.filter fun e => e.2.dirty != 0 }) s.cdies }
/-- Every queue bound to a node of a slot goes as by qdel (R29, R50). -/
def State.dropQueues (s : State) (slot : Nat) : State :=
  { s with queues := Tables.mapVal (fun _ q => if q.slot = slot ∧ q.live then q.delete else q) s.queues }
/-- The window's image copied into a slot and validated (R9, R21, R29); of an image shorter than its header the window's 64 bytes are the
header (log entry 31). The kick number restarts here (log entry 87). -/
def Slot.load (x : Slot) (fn : Nat) (win : Mem) : Slot :=
  let n := win.num 8 4
  if 2 ^ 22 < n then { x with code := 3, badoff := 8, badnode := 0xFFFF, kick := 0, fn := fn }
  else
    let m := win.slice 0 (max n 64)
    match Image.check m with
    | none => { image := m, code := 0, badoff := 0, badnode := 0xFFFF, kick := 0, fn := fn }
    | some f => { image := m, code := f.code, badoff := f.off, badnode := f.node, kick := 0, fn := fn }
/-- UPLOAD_COPY_VALIDATE (R29): once no replay of the slot is running. Handler records accepted before keep the node they were accepted for (log entry 114). -/
def execUploadCopyValidate (fn : Nat) (s : State) : Out :=
  .next (match (s.func fn).commit with
    | none => s
    | some slot =>
      if s.running slot ≠ 0 then s
      else
        let s1 := ((s.keepOld slot).dropQueues slot).uploadInvalidate
        (s1.updSlot slot fun x => x.load fn (s.func fn).upwin).updFunc fn fun x => { x with commit := none })
/-- Two ranges, of n from a and of k from b, share an element. -/
def rangesMeet (a n b k : Nat) : Bool := decide (max a b < min (a + n) (b + k))
/-- VFSLOT_WRITE (R27): only the PF sets a range, and never two that overlap; one beyond slot 4,095 is not taken (R28, log entry 87). -/
def execVfslotWrite (fn v : Nat) (value : Word64) (s : State) : Out :=
  .next (
    let base := bitsOf value 11 0
    let count := bitsOf value 28 16
    if s.recovery || fn != 0 || decide (16 ≤ v) || decide (4096 < base + count) then s
    else if (List.range 16).any fun w => w != v && rangesMeet base count (s.func (1 + w)).slotBase (s.func (1 + w)).slotCount then s
    else s.updFunc (1 + v) fun x => { x with slotBase := base, slotCount := count })

/-! ### Memory from outside (R26, R28, R217, R247) -/
/-- Bytes cut where lines end: address and bytes. -/
def cutLines (pa : Nat) : List Byte → List (Nat × List Byte)
  | [] => []
  | b :: bs =>
    match cutLines (pa + 1) bs with
    | (a, l) :: rest => if (pa + 1) % 64 = 0 then (pa, [b]) :: (a, l) :: rest else (pa, b :: l) :: rest
    | [] => [(pa, [b])]
/-- n bytes from a PA; a byte that names no memory reads 0 (R28). -/
def State.paRead (s : State) (pa n : Nat) : List Byte :=
  (List.range n).map fun i => match s.homeOf (pa + i) with | some a => s.home.read a | none => 0
/-- A write at a PA; what names no memory is dropped (R28). -/
def State.paWrite (s : State) (pa : Nat) (bs : List Byte) : State :=
  (cutLines pa bs).foldl (fun (s : State) e => match s.homeOf e.1 with | some a => s.writeHome a e.2 | none => s) s
/-- An atomic at home at a PA: the old value (R247). -/
def State.paAtomic (s : State) (pa : Nat) (op : AtomOp) (t : Ty) (x e : Word64) : State × Nat :=
  match s.homeOf pa with
  | none => (s, 0)
  | some a =>
    let n := tyWidth t / 8
    let old := s.home.num a n
    (if atomWrites op t old e.toNat then s.writeHome a (leBytes n (atomApply op t old x.toNat e.toNat)) else s, old)
/-- Bytes that an access covers. -/
def accSize : MemAcc → Nat
  | .read n => n
  | .write bs => bs.length
  | .atomic _ t _ _ => tyWidth t / 8
/-- A byte of an access from outside lies in a page that cannot be read or written any more (R352, R355). -/
def State.paBad (s : State) (pa n : Nat) : Bool :=
  (List.range n).any fun i => match s.homeOf (pa + i) with | some a => s.memBad a | none => false
/-- An access of the host at home, and what it reads, or that it fails with status 6 (R352); one to an interleaved PA waits while the interleave table is rewritten (R210). -/
def State.hostAccess (s : State) (i : Instr) (pa : Nat) (acc : MemAcc) : State :=
  if s.heldPa pa then { s with heldReqs := s.heldReqs ++ [i] }
  else if s.paBad pa (accSize acc) then s.emit (.accessFailed 6)
  else match acc with
  | .read n => s.emit (.readData (s.paRead pa n))
  | .write bs => s.paWrite pa bs
  | .atomic op t x e =>
    let r := s.paAtomic pa op t x e
    r.1.emit (.readData (leBytes (tyWidth t / 8) r.2))
/-- HOST_BAR2_ACCESS (R28): through the window at WINBASE. In recovery it reads 0 and writes nothing (R353). -/
def execHostBar2Access (fn off : Nat) (acc : MemAcc) (s : State) : Out :=
  .next (
    if 2 ^ 36 ≤ off then s
    else if s.recovery then (match acc with | .write _ => s | _ => s.emit (.readData (List.replicate (accSize acc) (0 : Byte))))
    else s.hostAccess (.hostBar2Access fn off acc) ((s.func fn).winbase * 2 ^ 36 + off) acc)
/-- HOST_CXL_MEM_ACCESS (R26): range 0 names interleaved HBM4E, range 1 the interleaved second tier. -/
def execHostCxlMemAccess (range off : Nat) (acc : MemAcc) (s : State) : Out :=
  .next (
    if s.recovery then s
    else if range = 0 ∧ off < 2 ^ 39 then s.hostAccess (.hostCxlMemAccess range off acc) (0x100000000000 + off) acc
    else if range = 1 ∧ off < 2 ^ 40 then s.hostAccess (.hostCxlMemAccess range off acc) (0x900000000000 + off) acc
    else s)
/-- FABRIC_MEMORY_REQUEST (R211, R247, R292): a peer's access to a PA of this device, at home; one that names no memory, or a
retired page (R352), gets an error, and one to an interleaved PA waits while the interleave table is rewritten (R210). -/
def execFabricMemoryRequest (source pa : Nat) (acc : MemAcc) (s : State) : Out :=
  .next (
    if (s.homeOf pa).isNone then s.emit .linkError
    else if s.heldPa pa then { s with heldReqs := s.heldReqs ++ [.fabricMemoryRequest source pa acc] }
    else if s.paBad pa (accSize acc) then s.emit .linkError
    else match acc with
      | .read n => s.emit (.answer source (s.paRead pa n))
      | .write bs => s.paWrite pa bs
      | .atomic op t x e =>
        let r := s.paAtomic pa op t x e
        r.1.emit (.answer source (leBytes (tyWidth t / 8) r.2)))

end Sys2Proof.Machine
end

