-- ==== Sys2Proof/Machine/Manage.lean ====
section
/-! DEFINITION. The registers of BAR0 and of the management space (R6, R28, R348), the power clamp (R349), Promorvo's reach into
the host (R351), attestation (R354): the meanings of REGISTER_WRITE, DSPLIT_WRITE, SCRW_WRITE, ITCTL_COMMIT, ITABLE_SWITCH,
TLBINV_WRITE, PCLAMP_LIMIT_WRITE, PCLAMP_CLAMP_CLEAR, POWER_CLAMP, MGMT_DOE_REQUEST, PROMORVO_HOST_WRITE and the SPDM requests. -/
namespace Sys2Proof.Machine

/-- The state a meaning goes on to. -/
def Out.state (o : Out) (s : State) : State := match o with | .next t => t | _ => s

/-! ### The scratchpad's split and windows (R203, R204) -/
/-- 64 KiB units of the scratchpad under a split. -/
def scratchUnits (split : Nat) : Nat := match split with | 0 => 2048 | 1 => 1792 | 2 => 1536 | _ => 1024
/-- Every window back at its reset value under a split: the PF's is the whole scratchpad. -/
def State.resetWindows (s : State) (split : Nat) : State :=
  let t : State := { s with funcs := Tables.mapVal (fun _ x => { x with scrBase := 0, scrCount := 0 }) s.funcs }
  t.updFunc 0 fun x => { x with scrBase := 0, scrCount := scratchUnits split }
/-- DSPLIT_WRITE (R203): until the first upload commit. -/
def execDsplitWrite (value : Word64) (s : State) : Out :=
  .next (if s.dsplitLocked then s else ({ s with dsplit := bitsOf value 1 0 }).resetWindows (bitsOf value 1 0))
/-- SCRW_WRITE (R204): ignored where the window passes the scratchpad's end or meets another's. -/
def execScrwWrite (f : Nat) (value : Word64) (s : State) : Out :=
  .next (
    let base := bitsOf value 10 0
    let count := bitsOf value 43 32
    if decide (17 ≤ f) || decide (scratchUnits s.dsplit < base + count) then s
    else if (List.range 17).any fun w => w != f && rangesMeet base count (s.func w).scrBase (s.func w).scrCount then s
    else s.updFunc f fun x => { x with scrBase := base, scrCount := count })

/-! ### The interleave table (R210) -/
/-- A staging register; at reset it holds the reset table. -/
def State.staging (s : State) (k : Nat) : Word64 := (Tables.get? s.itmap k).getD 0xE4E4E4E4E4E4E4E4#64
/-- The staged table. -/
def State.staged (s : State) : List Nat := (List.range 256).map fun j => bitsOf (s.staging (j / 32)) (2 * (j % 32) + 1) (2 * (j % 32))
/-- Each M-die has exactly 64 entries. -/
def uniform (t : List Nat) : Bool := (List.range 4).all fun m => (t.filter (· == m)).length == 64
/-- ITCTL_COMMIT (R210): a rewrite begins, or is refused; a commit while one is under way is ignored (log entry 100). -/
def execItctlCommit (value : Word64) (s : State) : Out :=
  .next (
    if s.itbusy || !value.getLsbD 32 then s
    else if uniform s.staged then { s with itbusy := true }
    else { s with itstatus := 1 })
/-- Interleaved requests under way: beats, instruction-cache fills, monitors on their way to their filters, page walks. -/
def State.interleaved (s : State) : Bool :=
  s.grids.any (fun e => e.2.leat.any (fun o => o.beats.any fun b => b.answer.isNone && b.kind == 0 && bitAt b.target 44) || e.2.fills.any fun f => bitAt f.target 44)
    || s.ctxs.any (fun e => match e.2.stage with | .arming _ none line | .lost _ line => bitAt (64 * line) 44 | _ => false)
    || s.cdies.any fun e => e.2.walks.any fun w => (walkReads s w.1 (4096 * w.2.1)).any fun pa => bitAt pa 44
/-- ITABLE_SWITCH (R210): the old generation's requests are over; the staged table becomes current. A staging that has been
rewritten since its commit, and is not uniform any more, is refused then (R209). What was held goes on, walks too. -/
def execItableSwitch (s : State) : Out :=
  .next (if !s.itbusy || s.interleaved then s
    else
      let s1 : State := if uniform s.staged then { s with itbusy := false, itstatus := 0, itable := s.staged, itgen := if s.itgen = 0xFFFF then 1 else s.itgen + 1 }
        else { s with itbusy := false, itstatus := 1 }
      (List.range 8).foldl (fun (s : State) d => s.nextWalk d) s1.dropLostRecs.refillAll.releaseHeld)
/-- TLBINV_WRITE (R214): function f's entries go in every cluster. -/
def execTlbinvWrite (value : Word64) (s : State) : Out :=
  .next (({ s with clusters := Tables.mapVal (fun _ c => { c with tlb := c.tlb.filter fun p => p.fn != value.toNat }) s.clusters }).forgetFails value.toNat)

/-! ### Power (R349) -/
/-- PCLAMP_LIMIT_WRITE: 400 to 2,800 W. -/
def execPclampLimitWrite (value : Word64) (s : State) : Out := .next { s with plim := min 2800 (max 400 (bitsOf value 27 16)) }
/-- PCLAMP_CLAMP_CLEAR: a 1 clears the clamp below 95 per cent of the limit. -/
def execPclampClampClear (value : Word64) (s : State) : Out :=
  .next (if value.getLsbD 0 && decide (100 * s.pwr < 95 * (1000 * s.plim)) then { s with clamp := false } else s)
/-- POWER_CLAMP: a reading of the two averages, in mW; pwr takes that over 1 ms, and with that over 100 µs above the limit the clamp sets, and
every target goes to its floor. -/
def execPowerClamp (power : PowerReading) (s : State) : Out :=
  .next (
    let s1 := { s with pwr := min power.last1ms (2 ^ 32 - 1) }
    if power.last100us ≤ 1000 * s.plim then s1
    else (List.range 16).foldl (fun (s : State) c => s.updCluster c fun x => { x with target := Config.wheelFloor }) { s1 with clamp := true })

/-! ### The management space (R348) -/
/-- The four registers of a range entry (R211), with reserved bits at 0. -/
def rangeMask (k : Nat) : Word64 := match k with | 0 | 1 => 0x000FFFFFFFFFF000#64 | 2 => 0xFFFFFFFFFFFFF000#64 | _ => 0x1F003F#64
def RangeEntry.set (e : RangeEntry) (k : Nat) (v : Word64) : RangeEntry :=
  let w := v &&& rangeMask k
  match k with | 0 => { e with base := w } | 1 => { e with lim := w } | 2 => { e with off := w } | _ => { e with attr := w }
def RangeEntry.get (e : RangeEntry) (k : Nat) : Word64 := match k with | 0 => e.base | 1 => e.lim | 2 => e.off | _ => e.attr
def State.rangeAt (s : State) (i : Nat) : RangeEntry := (Tables.get? s.ranges i).getD {}
/-- PTROOT's fields (R213). -/
def ptrootOf (v : Word64) : Nat := bitsOf v 47 16 * 2 ^ 16 + bitsOf v 0 0
/-- A 64-bit write at an offset of the management space; what is read-only, or no register, ignores it. -/
def State.mgmtWrite (s : State) (off : Nat) (v : Word64) : State :=
  if off % 8 ≠ 0 then s
  else if off = 0x0000 then (execDsplitWrite v s).state s
  else if off = 0x0008 then (execItctlCommit v s).state s
  else if off = 0x0010 then (execTlbinvWrite v s).state s
  else if off = 0x0028 then
    let t := (execPclampLimitWrite v s).state s
    (execPclampClampClear v t).state t
  else if 0x0040 ≤ off ∧ off < 0x0080 then { s with itmap := Tables.set ((off - 0x40) / 8) v s.itmap }
  else if 0x0100 ≤ off ∧ off < 0x0188 then (execScrwWrite ((off - 0x100) / 8) v s).state s
  else if 0x0200 ≤ off ∧ off < 0x0288 then (s.updFunc ((off - 0x200) / 8) fun x => { x with ptroot := ptrootOf v }).forgetFails ((off - 0x200) / 8)
  else if 0x1000 ≤ off ∧ off < 0x1800 then
    let i := (off - 0x1000) / 32
    { s with ranges := Tables.set i ((s.rangeAt i).set ((off - 0x1000) / 8 % 4) v) s.ranges }
  else if 0x2000 ≤ off ∧ off < 0x2100 then (if off % 16 = 0 then (execWsupWrite ((off - 0x2000) / 16) v s).state s else s)
  else if 0x4000 ≤ off ∧ off < 0x4C00 then (execMcadwWrite ((off - 0x4000) / 8) v s).state s
  else s
/-- Outstanding reservations of a cluster (R118). -/
def State.reservations (s : State) (c : Nat) : Nat := ((List.range 24).flatMap fun i => (s.asked (24 * c + i)).filter (·.req.reserved)).length
/-- A 64-bit read at an offset of the management space. -/
def State.mgmtRead (s : State) (off : Nat) : Nat :=
  if off % 8 ≠ 0 then 0
  else if off = 0x0000 then s.dsplit
  else if off = 0x0008 then ofBool s.itbusy * 2 ^ 32 + s.itstatus * 2 ^ 16 + s.itgen
  else if off = 0x0018 then (s.tasks.filter fun e => e.2.active).length * 2 ^ 32 + s.wovlHeld
  else if off = 0x0020 then s.pwr
  else if off = 0x0028 then s.plim * 2 ^ 16 + ofBool s.clamp
  else if off = 0x0030 then s.ecntDrop * 2 ^ 48 + s.badPages.length % 2 ^ 16 * 2 ^ 32 + s.ecntLast * 2 ^ 16 + s.ecntTrans
  else if 0x0040 ≤ off ∧ off < 0x0080 then (s.staging ((off - 0x40) / 8)).toNat
  else if 0x0100 ≤ off ∧ off < 0x0188 then (s.func ((off - 0x100) / 8)).scrCount * 2 ^ 32 + (s.func ((off - 0x100) / 8)).scrBase
  else if 0x0200 ≤ off ∧ off < 0x0288 then (s.func ((off - 0x200) / 8)).ptroot
  else if 0x1000 ≤ off ∧ off < 0x1800 then ((s.rangeAt ((off - 0x1000) / 32)).get ((off - 0x1000) / 8 % 4)).toNat
  else if 0x2000 ≤ off ∧ off < 0x2100 then
    let c := (off - 0x2000) / 16
    let x := s.cluster c
    if off % 16 = 0 then Config.wheelCeil c % 2 ^ 14 * 2 ^ 32 + Config.wheelFloor * 2 ^ 16 + x.target
    else x.circ % 2 ^ 14 * 2 ^ 40 + x.held % 2 ^ 14 * 2 ^ 26 + s.reservations c % 2 ^ 12 * 2 ^ 14 + x.free % 2 ^ 14
  else if 0x4000 ≤ off ∧ off < 0x4C00 then (s.grid ((off - 0x4000) / 8)).cadence
  else if 0x6000 ≤ off ∧ off < 0x6C00 then
    let x := s.grid ((off - 0x6000) / 8)
    ofBool x.tempValid * 2 ^ 16 + x.temp.toNat
  else 0
/-- MGMT_DOE_REQUEST (R348, R352): the host's read or write of the space, made by Promorvo for it, or its read of the list of retired pages: how
many there are, then their addresses. -/
def execMgmtDoeRequest (req : DoeReq) (s : State) : Out :=
  .next (if s.recovery then s else match req with
    | .read off => s.emit (.doe (BitVec.ofNat 64 (s.mgmtRead off)))
    | .write off v => s.mgmtWrite off v
    | .pages => s.badPages.foldl (fun (s : State) p => s.emit (.doe (BitVec.ofNat 64 (4096 * p)))) (s.emit (.doe (BitVec.ofNat 64 s.badPages.length))))

/-! ### BAR0 (R28) -/
/-- A 64-bit write at an offset of a function's BAR0: KICK, UPCTL and VFSLOT as their own events. -/
def State.bar0Write (s : State) (fn off : Nat) (v : Word64) : State :=
  if s.recovery ∨ 17 ≤ fn then s
  else if off = 0x00 then (execKick fn 8 v [] s).state s
  else if off = 0x10 then (execUploadCommit fn v s).state s
  else if off = 0x18 then s.updFunc fn fun x => { x with winbase := bitsOf v 47 36 }
  else if 0x100 ≤ off ∧ off < 0x180 ∧ off % 8 = 0 then (execVfslotWrite fn ((off - 0x100) / 8) v s).state s
  else if 0x400000 ≤ off ∧ off + 8 ≤ 0x800000 then
    (if (s.func fn).commit.isSome then s else s.updFunc fn fun x => { x with upwin := x.upwin.writeN (off - 0x400000) (leBytes 8 v.toNat) })
  else s
/-- The status word of a slot (R20). -/
def Slot.word (x : Slot) : Nat := x.badoff % 2 ^ 32 * 2 ^ 32 + x.badnode % 2 ^ 16 * 2 ^ 16 + x.code % 2 ^ 16
/-- What a 64-bit read at an offset of a function's BAR0 gives (R20, R28, R29, R32); KICK is write-only. -/
def State.bar0Read (s : State) (fn off : Nat) : Nat :=
  let fu := s.func fn
  if s.recovery ∨ 17 ≤ fn then 0
  else if off = 0x08 then fu.nref * 2 ^ 32 + fu.refSlot % 2 ^ 12 * 2 ^ 8 + fu.refStatus
  else if off = 0x10 then ofBool fu.commit.isSome * 2 ^ 12 + fu.upSlot
  else if off = 0x18 then fu.winbase * 2 ^ 36
  else if off = 0x20 then fu.slotCount * 2 ^ 16 + fu.slotBase
  else if 0x100 ≤ off ∧ off < 0x180 ∧ off % 8 = 0 then
    (if fn = 0 then (s.func (1 + (off - 0x100) / 8)).slotCount * 2 ^ 16 + (s.func (1 + (off - 0x100) / 8)).slotBase else 0)
  else if 0x10000 ≤ off ∧ off < 0x10000 + 8 * fu.slotCount ∧ off % 8 = 0 then (s.slot (fu.slotBase + (off - 0x10000) / 8)).word
  else if 0x400000 ≤ off ∧ off + 8 ≤ 0x800000 then fu.upwin.num (off - 0x400000) 8
  else 0
/-- REGISTER_WRITE (R6). -/
def execRegisterWrite (space : RegSpace) (off : Nat) (value : Word64) (s : State) : Out :=
  .next (match space with
    | .bar0 fn => s.bar0Write fn off value
    | .mgmt => s.mgmtWrite off value
    | .window k =>
      let w := s.hostWins.getD k (1, 0)
      if 2 ≤ k then s
      else if off = 0 then { s with hostWins := s.hostWins.set k (value.toNat / 4096, w.2) }
      else if off = 8 then { s with hostWins := s.hostWins.set k (w.1, value.toNat / 4096) }
      else s)

/-! ### Promorvo's writes to the host (R351) -/
/-- Every byte lies in one of the windows. -/
def State.inWindow (s : State) (addr n : Nat) : Bool :=
  s.hostWins.any fun w => decide (w.1 ≤ addr / 4096) && decide ((addr + n - 1) / 4096 ≤ w.2)
/-- PROMORVO_HOST_WRITE (R351, R352): outside both windows it is dropped and counted. -/
def execPromorvoHostWrite (addr : Nat) (data : List Byte) (s : State) : Out :=
  .next (if s.inWindow addr data.length then s.emit (.hostWrite addr data) else { s with ecntDrop := min 65535 (s.ecntDrop + 1) })

/-! ### Attestation (R354) -/
/-- An SPDM answer: its code and its bytes; a device in recovery has no identity to answer with. -/
def State.spdm (s : State) (code : Byte) (data : List Byte) : State := if s.recovery then s else s.emit (.spdm code data)
/-- The fused configuration as block 3 gives it (R354): rollback counter, Wheel floor, the ceiling of each cluster. -/
def fusedConfig : List Byte := leBytes 8 Config.rollbackCounter ++ leBytes 2 Config.wheelFloor ++ (List.range 16).flatMap fun c => leBytes 2 (Config.wheelCeil c)
/-- Measurement block i (R354): the third is the fused configuration, the fourth DSPLIT and the table's generation. -/
def State.measure (s : State) (i : Nat) : List Byte :=
  if i = 3 then fusedConfig else if i = 4 then leBytes 1 s.dsplit ++ leBytes 2 s.itgen else Config.measurement i
/-- The algorithms of R354 as SPDM numbers them (log entry 72): ECDSA P-521, SHA-512. -/
def ecdsaP521 : Nat := 0x100
def sha512 : Nat := 0x4
def execGetVersion (s : State) : Out := .next (s.spdm 0x04 (Config.spdmBytes 0x84 0))
def execGetCapabilities (s : State) : Out := .next (s.spdm 0x61 (Config.spdmBytes 0xE1 0))
/-- NEGOTIATE_ALGORITHMS: the asymmetric algorithm and the hash selected, then what SPDM lays out. -/
def execNegotiateAlgorithms (s : State) : Out := .next (s.spdm 0x63 (leBytes 4 ecdsaP521 ++ leBytes 4 sha512 ++ Config.spdmBytes 0xE3 0))
def execGetDigests (s : State) : Out := .next (s.spdm 0x01 (Config.spdmBytes 0x81 0))
def execGetCertificate (slot : Nat) (s : State) : Out := .next (s.spdm 0x02 (Config.spdmBytes 0x82 slot))
def execChallenge (nonce : BitVec 256) (s : State) : Out := .next (s.spdm 0x03 (Config.spdmBytes 0x83 nonce.toNat))
/-- GET_MEASUREMENTS: index 0 asks for their number, 255 for all. -/
def execGetMeasurements (index : Nat) (s : State) : Out :=
  .next (
    if index = 0 then s.spdm 0x60 [4]
    else if index = 255 then s.spdm 0x60 ((List.range 4).flatMap fun i => s.measure (i + 1))
    else if index ≤ 4 then s.spdm 0x60 (s.measure index)
    else s.spdm 0x7F [1])
/-- SPDM_UNSUPPORTED_REQUEST: an error answer. -/
def execSpdmUnsupportedRequest (_code : Byte) (s : State) : Out := .next (s.spdm 0x7F [7])

end Sys2Proof.Machine
end

