-- ==== Sys2Proof/Machine/Dispatch.lean ====
section
/-! DEFINITION. One arm per constructor of Instr: its meaning. -/
namespace Sys2Proof.Machine

def exec (i : Instr) (s : State) : Host.Outcome State Fault Refusal :=
  match i with
  | .kick fn bytes value remote => Sys2Proof.Machine.execKick fn bytes value remote s
  | .uploadCommit fn value => Sys2Proof.Machine.execUploadCommit fn value s
  | .uploadCopyValidate fn => Sys2Proof.Machine.execUploadCopyValidate fn s
  | .vfslotWrite fn v value => Sys2Proof.Machine.execVfslotWrite fn v value s
  | .registerWrite space off value => Sys2Proof.Machine.execRegisterWrite space off value s
  | .hostBar2Access fn off acc => Sys2Proof.Machine.execHostBar2Access fn off acc s
  | .hostCxlMemAccess range off acc => Sys2Proof.Machine.execHostCxlMemAccess range off acc s
  | .binInsert m => Sys2Proof.Machine.execBinInsert m s
  | .gnoutRecordArrival len off data => Sys2Proof.Machine.execGnoutRecordArrival len off data s
  | .invokeAnswer data => Sys2Proof.Machine.execInvokeAnswer data s
  | .retireWrite data => Sys2Proof.Machine.execRetireWrite data s
  | .retireAck data => Sys2Proof.Machine.execRetireAck data s
  | .dispatchOffer m => Sys2Proof.Machine.execDispatchOffer m s
  | .anchorBlock m => Sys2Proof.Machine.execAnchorBlock m s
  | .stealRequest d => Sys2Proof.Machine.execStealRequest d s
  | .stealAnswer d => Sys2Proof.Machine.execStealAnswer d s
  | .taskStartAction task d => Sys2Proof.Machine.execTaskStartAction task d s
  | .chainStallBreak p => Sys2Proof.Machine.execChainStallBreak p s
  | .wheelStop c => Sys2Proof.Machine.execWheelStop c s
  | .loopShed cid => Sys2Proof.Machine.execLoopShed cid s
  | .wsupWrite c value => Sys2Proof.Machine.execWsupWrite c value s
  | .mcadwWrite g value => Sys2Proof.Machine.execMcadwWrite g value s
  | .resultLands cid id => Sys2Proof.Machine.execResultLands cid id s
  | .homeStore cid => Sys2Proof.Machine.execHomeStore cid s
  | .storeAck cid => Sys2Proof.Machine.execStoreAck cid s
  | .sfuAccept p => Sys2Proof.Machine.execSfuAccept p s
  | .linkHandoff cid => Sys2Proof.Machine.execLinkHandoff cid s
  | .loopStep cid => Sys2Proof.Machine.execLoopStep cid s
  | .loopComplete cid => Sys2Proof.Machine.execLoopComplete cid s
  | .leatBeatIssue g => Sys2Proof.Machine.execLeatBeatIssue g s
  | .leatBeatComplete g op beat reply => Sys2Proof.Machine.execLeatBeatComplete g op beat reply s
  | .pageWalkComplete d fn granule memError => Sys2Proof.Machine.execPageWalkComplete d fn granule memError s
  | .requestTimeout g op beat => Sys2Proof.Machine.execRequestTimeout g op beat s
  | .dieCacheEvict d line => Sys2Proof.Machine.execDieCacheEvict d line s
  | .bankOpDone g id => Sys2Proof.Machine.execBankOpDone g id s
  | .parkWake obj => Sys2Proof.Machine.execParkWake obj s
  | .watchWakeArrival cid serial => Sys2Proof.Machine.execWatchWakeArrival cid serial s
  | .takeTrap cid => Sys2Proof.Machine.execTakeTrap cid s
  | .memoryErrorRetry site retryOk => Sys2Proof.Machine.execMemoryErrorRetry site retryOk s
  | .sramLineRemap g array line => Sys2Proof.Machine.execSramLineRemap g array line s
  | .preemptRequest blk => Sys2Proof.Machine.execPreemptRequest blk s
  | .blockFlushRestart blk => Sys2Proof.Machine.execBlockFlushRestart blk s
  | .blockSave blk => Sys2Proof.Machine.execBlockSave blk s
  | .blockRestore blk => Sys2Proof.Machine.execBlockRestore blk s
  | .sensorUpdate g temp => Sys2Proof.Machine.execSensorUpdate g temp s
  | .migrationCapture g => Sys2Proof.Machine.execMigrationCapture g s
  | .dsplitWrite value => Sys2Proof.Machine.execDsplitWrite value s
  | .scrwWrite f value => Sys2Proof.Machine.execScrwWrite f value s
  | .itctlCommit value => Sys2Proof.Machine.execItctlCommit value s
  | .tlbinvWrite value => Sys2Proof.Machine.execTlbinvWrite value s
  | .pclampLimitWrite value => Sys2Proof.Machine.execPclampLimitWrite value s
  | .pclampClampClear value => Sys2Proof.Machine.execPclampClampClear value s
  | .powerClamp power => Sys2Proof.Machine.execPowerClamp power s
  | .mgmtDoeRequest req => Sys2Proof.Machine.execMgmtDoeRequest req s
  | .promorvoHostWrite addr data => Sys2Proof.Machine.execPromorvoHostWrite addr data s
  | .getCertificate slot => Sys2Proof.Machine.execGetCertificate slot s
  | .challenge nonce => Sys2Proof.Machine.execChallenge nonce s
  | .getMeasurements index => Sys2Proof.Machine.execGetMeasurements index s
  | .spdmUnsupportedRequest code => Sys2Proof.Machine.execSpdmUnsupportedRequest code s
  | .partFailure part => Sys2Proof.Machine.execPartFailure part s
  | .coldReset signed version => Sys2Proof.Machine.execColdReset signed version s
  | .vfFlr v => Sys2Proof.Machine.execVfFlr v s
  | .vaddF32S d a b => Sys2Proof.Machine.execVaddF32S d a b s
  | .vmulF32S d a b => Sys2Proof.Machine.execVmulF32S d a b s
  | .vfmaF32S d a b => Sys2Proof.Machine.execVfmaF32S d a b s
  | .vmovS d a => Sys2Proof.Machine.execVmovS d a s
  | .smovS d a => Sys2Proof.Machine.execSmovS d a s
  | .saddI64S d a b => Sys2Proof.Machine.execSaddI64S d a b s
  | .saddI64ImmS d a imm => Sys2Proof.Machine.execSaddI64ImmS d a imm s
  | .vaddI32S d a b => Sys2Proof.Machine.execVaddI32S d a b s
  | .vandS d a b => Sys2Proof.Machine.execVandS d a b s
  | .ldI32S d a => Sys2Proof.Machine.execLdI32S d a s
  | .stI32S d a => Sys2Proof.Machine.execStI32S d a s
  | .braS off => Sys2Proof.Machine.execBraS off s
  | .loopS d off => Sys2Proof.Machine.execLoopS d off s
  | .mandS d a b => Sys2Proof.Machine.execMandS d a b s
  | .nop f => Sys2Proof.Machine.execNop f s
  | .doneRow f => Sys2Proof.Machine.execDoneRow f s
  | .trap f => Sys2Proof.Machine.execTrap f s
  | .tret f => Sys2Proof.Machine.execTret f s
  | .brk f => Sys2Proof.Machine.execBrk f s
  | .sget f => Sys2Proof.Machine.execSget f s
  | .sset f => Sys2Proof.Machine.execSset f s
  | .yield f => Sys2Proof.Machine.execYield f s
  | .perf f => Sys2Proof.Machine.execPerf f s
  | .icinv f => Sys2Proof.Machine.execIcinv f s
  | .mpoint f => Sys2Proof.Machine.execMpoint f s
  | .sadd f => Sys2Proof.Machine.execSadd f s
  | .ssub f => Sys2Proof.Machine.execSsub f s
  | .smul f => Sys2Proof.Machine.execSmul f s
  | .smulh f => Sys2Proof.Machine.execSmulh f s
  | .sdiv f => Sys2Proof.Machine.execSdiv f s
  | .srem f => Sys2Proof.Machine.execSrem f s
  | .sand f => Sys2Proof.Machine.execSand f s
  | .sor f => Sys2Proof.Machine.execSor f s
  | .sxor f => Sys2Proof.Machine.execSxor f s
  | .sshl f => Sys2Proof.Machine.execSshl f s
  | .sshr f => Sys2Proof.Machine.execSshr f s
  | .ssar f => Sys2Proof.Machine.execSsar f s
  | .smin f => Sys2Proof.Machine.execSmin f s
  | .smax f => Sys2Proof.Machine.execSmax f s
  | .sclz f => Sys2Proof.Machine.execSclz f s
  | .spopc f => Sys2Proof.Machine.execSpopc f s
  | .scmp f => Sys2Proof.Machine.execScmp f s
  | .ssel f => Sys2Proof.Machine.execSsel f s
  | .smov f => Sys2Proof.Machine.execSmov f s
  | .sli f => Sys2Proof.Machine.execSli f s
  | .slui f => Sys2Proof.Machine.execSlui f s
  | .sadr f => Sys2Proof.Machine.execSadr f s
  | .sext f => Sys2Proof.Machine.execSext f s
  | .sbfx f => Sys2Proof.Machine.execSbfx f s
  | .sbfi f => Sys2Proof.Machine.execSbfi f s
  | .bra f => Sys2Proof.Machine.execBra f s
  | .bc f => Sys2Proof.Machine.execBc f s
  | .bmz f => Sys2Proof.Machine.execBmz f s
  | .bmnz f => Sys2Proof.Machine.execBmnz f s
  | .jmp f => Sys2Proof.Machine.execJmp f s
  | .call f => Sys2Proof.Machine.execCall f s
  | .callr f => Sys2Proof.Machine.execCallr f s
  | .ret f => Sys2Proof.Machine.execRet f s
  | .loopBr f => Sys2Proof.Machine.execLoopBr f s
  | .mand f => Sys2Proof.Machine.execMand f s
  | .mor f => Sys2Proof.Machine.execMor f s
  | .mxor f => Sys2Proof.Machine.execMxor f s
  | .mandn f => Sys2Proof.Machine.execMandn f s
  | .mnot f => Sys2Proof.Machine.execMnot f s
  | .mset f => Sys2Proof.Machine.execMset f s
  | .mget f => Sys2Proof.Machine.execMget f s
  | .mpop f => Sys2Proof.Machine.execMpop f s
  | .mffs f => Sys2Proof.Machine.execMffs f s
  | .mlane f => Sys2Proof.Machine.execMlane f s
  | .vaddInt f => Sys2Proof.Machine.execVaddInt f s
  | .vsubInt f => Sys2Proof.Machine.execVsubInt f s
  | .vmulInt f => Sys2Proof.Machine.execVmulInt f s
  | .vmulh f => Sys2Proof.Machine.execVmulh f s
  | .vmad f => Sys2Proof.Machine.execVmad f s
  | .vminInt f => Sys2Proof.Machine.execVminInt f s
  | .vmaxInt f => Sys2Proof.Machine.execVmaxInt f s
  | .vabsInt f => Sys2Proof.Machine.execVabsInt f s
  | .vand f => Sys2Proof.Machine.execVand f s
  | .vor f => Sys2Proof.Machine.execVor f s
  | .vxor f => Sys2Proof.Machine.execVxor f s
  | .vnot f => Sys2Proof.Machine.execVnot f s
  | .vshl f => Sys2Proof.Machine.execVshl f s
  | .vshr f => Sys2Proof.Machine.execVshr f s
  | .vsar f => Sys2Proof.Machine.execVsar f s
  | .vpopc f => Sys2Proof.Machine.execVpopc f s
  | .vaddF f => Sys2Proof.Machine.execVaddF f s
  | .vsubF f => Sys2Proof.Machine.execVsubF f s
  | .vmulF f => Sys2Proof.Machine.execVmulF f s
  | .vfma f => Sys2Proof.Machine.execVfma f s
  | .vfms f => Sys2Proof.Machine.execVfms f s
  | .vfnma f => Sys2Proof.Machine.execVfnma f s
  | .vminF f => Sys2Proof.Machine.execVminF f s
  | .vmaxF f => Sys2Proof.Machine.execVmaxF f s
  | .vabsF f => Sys2Proof.Machine.execVabsF f s
  | .vneg f => Sys2Proof.Machine.execVneg f s
  | .vdot2 f => Sys2Proof.Machine.execVdot2 f s
  | .vred f => Sys2Proof.Machine.execVred f s
  | .vclamp f => Sys2Proof.Machine.execVclamp f s
  | .vrnd f => Sys2Proof.Machine.execVrnd f s
  | .vscale f => Sys2Proof.Machine.execVscale f s
  | .vcmp f => Sys2Proof.Machine.execVcmp f s
  | .vsel f => Sys2Proof.Machine.execVsel f s
  | .vmov f => Sys2Proof.Machine.execVmov f s
  | .vbcast f => Sys2Proof.Machine.execVbcast f s
  | .vext f => Sys2Proof.Machine.execVext f s
  | .vperm f => Sys2Proof.Machine.execVperm f s
  | .vrot f => Sys2Proof.Machine.execVrot f s
  | .vcompress f => Sys2Proof.Machine.execVcompress f s
  | .vexpand f => Sys2Proof.Machine.execVexpand f s
  | .vscan f => Sys2Proof.Machine.execVscan f s
  | .vclz f => Sys2Proof.Machine.execVclz f s
  | .vcvt f => Sys2Proof.Machine.execVcvt f s
  | .vcvto f => Sys2Proof.Machine.execVcvto f s
  | .vpack f => Sys2Proof.Machine.execVpack f s
  | .vunpack f => Sys2Proof.Machine.execVunpack f s
  | .vrcp f => Sys2Proof.Machine.execVrcp f s
  | .vrsq f => Sys2Proof.Machine.execVrsq f s
  | .vsqrt f => Sys2Proof.Machine.execVsqrt f s
  | .vexp2 f => Sys2Proof.Machine.execVexp2 f s
  | .vlog2 f => Sys2Proof.Machine.execVlog2 f s
  | .vsin f => Sys2Proof.Machine.execVsin f s
  | .vcos f => Sys2Proof.Machine.execVcos f s
  | .vtanh f => Sys2Proof.Machine.execVtanh f s
  | .vsigm f => Sys2Proof.Machine.execVsigm f s
  | .ld f => Sys2Proof.Machine.execLd f s
  | .st f => Sys2Proof.Machine.execSt f s
  | .sld f => Sys2Proof.Machine.execSld f s
  | .sst f => Sys2Proof.Machine.execSst f s
  | .ldb f => Sys2Proof.Machine.execLdb f s
  | .vspill f => Sys2Proof.Machine.execVspill f s
  | .vfill f => Sys2Proof.Machine.execVfill f s
  | .push f => Sys2Proof.Machine.execPush f s
  | .pop f => Sys2Proof.Machine.execPop f s
  | .fence f => Sys2Proof.Machine.execFence f s
  | .atom f => Sys2Proof.Machine.execAtom f s
  | .satom f => Sys2Proof.Machine.execSatom f s
  | .acas f => Sys2Proof.Machine.execAcas f s
  | .sacas f => Sys2Proof.Machine.execSacas f s
  | .bkmode f => Sys2Proof.Machine.execBkmode f s
  | .bkbcast f => Sys2Proof.Machine.execBkbcast f s
  | .bkmac f => Sys2Proof.Machine.execBkmac f s
  | .bkget f => Sys2Proof.Machine.execBkget f s
  | .bkclr f => Sys2Proof.Machine.execBkclr f s
  | .bkscan f => Sys2Proof.Machine.execBkscan f s
  | .cpy f => Sys2Proof.Machine.execCpy f s
  | .cpyg f => Sys2Proof.Machine.execCpyg f s
  | .cpys f => Sys2Proof.Machine.execCpys f s
  | .cpyt f => Sys2Proof.Machine.execCpyt f s
  | .cpyd f => Sys2Proof.Machine.execCpyd f s
  | .gatom f => Sys2Proof.Machine.execGatom f s
  | .tclaim f => Sys2Proof.Machine.execTclaim f s
  | .trel f => Sys2Proof.Machine.execTrel f s
  | .tstat f => Sys2Proof.Machine.execTstat f s
  | .mloop f => Sys2Proof.Machine.execMloop f s
  | .mstep f => Sys2Proof.Machine.execMstep f s
  | .azero f => Sys2Proof.Machine.execAzero f s
  | .amov f => Sys2Proof.Machine.execAmov f s
  | .ast f => Sys2Proof.Machine.execAst f s
  | .bpass f => Sys2Proof.Machine.execBpass f s
  | .fnew f => Sys2Proof.Machine.execFnew f s
  | .fset f => Sys2Proof.Machine.execFset f s
  | .fget f => Sys2Proof.Machine.execFget f s
  | .fwait f => Sys2Proof.Machine.execFwait f s
  | .ftest f => Sys2Proof.Machine.execFtest f s
  | .fmov f => Sys2Proof.Machine.execFmov f s
  | .fcancel f => Sys2Proof.Machine.execFcancel f s
  | .bar f => Sys2Proof.Machine.execBar f s
  | .arrive f => Sys2Proof.Machine.execArrive f s
  | .awaitBar f => Sys2Proof.Machine.execAwaitBar f s
  | .mon f => Sys2Proof.Machine.execMon f s
  | .mwait f => Sys2Proof.Machine.execMwait f s
  | .rinit f => Sys2Proof.Machine.execRinit f s
  | .rtake f => Sys2Proof.Machine.execRtake f s
  | .spawn f => Sys2Proof.Machine.execSpawn f s
  | .invoke f => Sys2Proof.Machine.execInvoke f s
  | .qnew f => Sys2Proof.Machine.execQnew f s
  | .qdel f => Sys2Proof.Machine.execQdel f s
  | .rdone f => Sys2Proof.Machine.execRdone f s
  | .fabricMemoryRequest source pa acc => Sys2Proof.Machine.execFabricMemoryRequest source pa acc s
  | .icacheLineFill g fn line => Sys2Proof.Machine.execIcacheLineFill g fn line s
  | .dieGate die => Sys2Proof.Machine.execDieGate die s
  | .successorStart => Sys2Proof.Machine.execSuccessorStart s
  | .replayComplete => Sys2Proof.Machine.execReplayComplete s
  | .binTimerExpiry => Sys2Proof.Machine.execBinTimerExpiry s
  | .queueToBin => Sys2Proof.Machine.execQueueToBin s
  | .queueSwapOut => Sys2Proof.Machine.execQueueSwapOut s
  | .queueSwapIn => Sys2Proof.Machine.execQueueSwapIn s
  | .invokeSend => Sys2Proof.Machine.execInvokeSend s
  | .invokeResend => Sys2Proof.Machine.execInvokeResend s
  | .invokeGiveUp => Sys2Proof.Machine.execInvokeGiveUp s
  | .retireWriteResend => Sys2Proof.Machine.execRetireWriteResend s
  | .retainedEntryExpiry => Sys2Proof.Machine.execRetainedEntryExpiry s
  | .gridGate => Sys2Proof.Machine.execGridGate s
  | .wakeWarmupEnd => Sys2Proof.Machine.execWakeWarmupEnd s
  | .yieldExpiry => Sys2Proof.Machine.execYieldExpiry s
  | .repoll => Sys2Proof.Machine.execRepoll s
  | .requestReservation => Sys2Proof.Machine.execRequestReservation s
  | .activityWindowEnd => Sys2Proof.Machine.execActivityWindowEnd s
  | .classChangeEffect => Sys2Proof.Machine.execClassChangeEffect s
  | .mwaitTimeout => Sys2Proof.Machine.execMwaitTimeout s
  | .rangeSteal => Sys2Proof.Machine.execRangeSteal s
  | .rdoneFlush => Sys2Proof.Machine.execRdoneFlush s
  | .rdoneFlushDone => Sys2Proof.Machine.execRdoneFlushDone s
  | .blockRetire => Sys2Proof.Machine.execBlockRetire s
  | .taskComplete => Sys2Proof.Machine.execTaskComplete s
  | .drainTimeout => Sys2Proof.Machine.execDrainTimeout s
  | .migrationHoldLift => Sys2Proof.Machine.execMigrationHoldLift s
  | .migrationCaptureTimeout => Sys2Proof.Machine.execMigrationCaptureTimeout s
  | .migrationMoveDone => Sys2Proof.Machine.execMigrationMoveDone s
  | .itableSwitch => Sys2Proof.Machine.execItableSwitch s
  | .getVersion => Sys2Proof.Machine.execGetVersion s
  | .getCapabilities => Sys2Proof.Machine.execGetCapabilities s
  | .negotiateAlgorithms => Sys2Proof.Machine.execNegotiateAlgorithms s
  | .getDigests => Sys2Proof.Machine.execGetDigests s
  | .warmReset => Sys2Proof.Machine.execWarmReset s
  | .nopS => Sys2Proof.Machine.execNopS s
  | .doneS => Sys2Proof.Machine.execDoneS s
  | .migrationHoldRetake => Sys2Proof.Machine.execMigrationHoldRetake s

end Sys2Proof.Machine
end

