-- ==== Sys2Proof/Machine/Schedule.lean ====
section
/-! DEFINITION. What happens in a cycle, and in which order (the model's own, assumption 2): the die clocks advance, what is due
on the dies comes about, then each grid has its cycles, in which what is due lands before its rows choose (R107) and issue. -/
namespace Sys2Proof.Machine

/-! ### Issuing from memory -/
/-- The bytes captured of an instruction that does not decode (R86). -/
def capturedRaw (bs : List Byte) : Trap :=
  let w := leNat bs
  let by_ (n : Nat) : Byte := BitVec.ofNat 8 (field w n 8)
  if bs.length = 4 then { op := BitVec.ofNat 64 w, d := by_ 8, a := by_ 16, b := by_ 24 }
  else { op := BitVec.ofNat 64 (w % 2 ^ 64), lit := BitVec.ofNat 32 (w >>> 64), d := by_ 10, a := by_ 18, b := by_ 26, c := by_ 34 }
/-- The trap of bytes that no rule of R84 lets decode. -/
def rawTrap (x : Ctx) (bs : List Byte) : Trap :=
  let w := leNat bs
  { capturedRaw bs with cause := 1, pc := x.pc, ill := some (if bs.length = 4 then (15, false) else (field w 42 4, bitAt w 46)) }
/-- What the context's fetch leads to: an instruction to execute, or a state in which none is. -/
inductive Fetching
  | run (i : Instr) (s : State)
  | stop (s : State)
/-- Fetch and decode for a context: waits, fetch faults and undecodable bytes end the attempt (R85 items 1 and 2). An instruction that has issued
and waits to complete goes on as it was fetched. -/
def State.fetching (s : State) (cid : Nat) : Fetching :=
  match s.ctx? cid with
  | none => .stop (s.noted 0)
  | some x0 =>
    if resting x0 (s.now cid) then .stop (s.noted 3)
    else match x0.going with
    | some i => .run i s
    | none =>
    if x0.wrapped then .stop (s.trapAt cid { cause := 6, pc := x0.pc, addr := x0.pc })
    else
      let t := s.tendBuffer cid
      let x := t.ctx cid
      match fetchInstr t cid with
      | .wait u => .stop ((u.updCtx cid fun x => { x with batonPending := false }).noted 3)
      | .lost => .stop ((t.failTask (t.blockOf x).task 6 0).noted 3)
      | .fault c a => .stop (t.trapAt cid { cause := c, pc := x.pc, addr := BitVec.ofNat 64 a })
      | .bytes bs => match (decodeBytes bs).1 with
        | .ok i => .run i t
        | .error _ => .stop (t.trapAt cid (rawTrap x bs))
/-- The next instruction of a context, issued: exec of what its bytes decode to. -/
def issueNext (cid : Nat) (s : State) : Out :=
  match s.fetching cid with
  | .stop t => .next t
  | .run i t => exec i { t with cur := some cid }

/-! ### A row's choice (R107) -/
/-- Try a context's next instruction: a waiting one leaves what it posts; else the state as it was, and that it is ready to
take the issue slot. -/
def probe (cid : Nat) (s : State) : State × Bool :=
  match issueNext cid s with
  | .next t => if t.verdict = 3 then (t, false) else if t.verdict = 0 then (s, false) else (s, true)
  | _ => (s, true)
/-- Try a list of contexts: the state, and those that are ready. -/
def probeAll : List Nat → State → State × List Nat
  | [], s => (s, [])
  | c :: cs, s =>
    let r := probe c s
    let rest := probeAll cs r.1
    (rest.1, if r.2 then c :: rest.2 else rest.2)
/-- Rank of R107, shifted so that −2 is 0. A yield issued in cycle T ranks −1 through cycle T + 63 (log entry 108). -/
def State.rank (s : State) (cid : Nat) : Nat :=
  let x := s.ctx cid
  if x.repollAt.isSome then 0 else if (match x.yieldedUntil with | some t => decide (s.now cid < t) | none => false) then 1 else 2 + (s.blockOf x).prio
/-- The context with the greatest measure, the first of the list among equals. -/
def best (f : Nat → Nat) (l : List Nat) : Option Nat :=
  l.foldl (fun acc c => match acc with | none => some c | some b => if f b < f c then some c else some b) none
/-- The pick of R107 among ready contexts of row p. -/
def State.pick (s : State) (p : Nat) (ready : List Nat) : Option Nat :=
  let starving := ready.filter fun c => decide (64 ≤ (s.ctx c).unchosen)
  let ring := (cyclicAfter (s.prow p).rr).filterMap fun sl => if ready.contains (4 * p + sl) then some (4 * p + sl) else none
  if !starving.isEmpty then best (fun c => (s.ctx c).unchosen) starving
  else match ring.find? fun c => decide (0 < (s.ctx c).granted) with
    | some c => some c
    | none => best s.rank ring
/-- With no holder, the Baton goes to the first pending context after the last holder (R112). -/
def State.assignBaton (s : State) (p : Nat) : State :=
  let r := s.prow p
  match r.baton with
  | some _ => s
  | none =>
    let order := match r.lastBaton with | some l => cyclicAfter l | none => [0, 1, 2, 3]
    let pend := order.filter fun sl => s.pendingBaton p sl
    match (s.starvedBaton p pend).or pend.head? with
    | some sl => s.moveBaton p pend none sl
    | none => s
/-- The context's next instruction would start a loop or step now. -/
def startsLoop (s : State) (cid : Nat) : Bool :=
  match issueNext cid s with | .next t => t.verdict == 1 && (t.ctx cid).loop.isSome | _ => false
/-- The context's loop is in flight and has not shed, or its next instruction is about to start one, whether or not R107 chooses it in this cycle (log
entry 109). -/
def State.usesBaton (s : State) (cid : Nat) (ready : Bool) : Bool :=
  match (s.ctx cid).loop with | some l => !l.shed && !l.halted | none => ready && startsLoop s cid
/-- A holder that does not use the Baton passes it on when another is pending (R112, R117). -/
def State.yieldBaton (s : State) (p : Nat) (ready : List Nat) : State :=
  match (s.prow p).baton with
  | some h =>
    if !s.usesBaton (4 * p + h) (ready.contains (4 * p + h)) && (cyclicAfter h).any (fun sl => sl != h && s.pendingBaton p sl) then s.passBaton p true else s
  | none => s
/-- The context's next instruction names a port (R257). -/
def portIssue (s : State) (cid : Nat) : Bool :=
  match s.fetching cid with
  | .run i _ => (match i.long?.or i.expand? with | some (op, f) => namesPn op f || namesPs op f | none => false)
  | .stop _ => false
/-- Put an issue after the choices of the grid's other rows, before those of higher rows. -/
def insertLate (c : Nat) : List Action → List Action
  | .row p r :: t => .row p r :: insertLate c t
  | .event (.loopStep k) :: t => .event (.loopStep k) :: insertLate c t
  | .event (.loopShed k) :: t => .event (.loopShed k) :: insertLate c t
  | t => .late c :: t
/-- The chosen context is to issue: at once where it moves a port entry, since ports are decided from the bottom of a band
upward (R258), else after the choices of all rows, lowest row first (R243, R249). -/
def State.chosen (s : State) (c : Nat) (round : Round) : State :=
  { s with agenda := if round == .again || portIssue s c then .issue c :: s.agenda else insertLate c s.agenda }
/-- One more cycle of being ready and not chosen (R107). -/
def State.countUnchosen (s : State) (ready : List Nat) (c : Option Nat) : State :=
  ready.foldl (fun (t : State) d => if some d = c then t else t.updCtx d fun x => { x with unchosen := x.unchosen + 1 }) s
/-- The row has issued in this cycle, or a context of it is chosen to. -/
def State.rowTaken (s : State) (p : Nat) : Bool :=
  (s.prow p).issuedAt == some (s.grid (p / 32)).clk || s.agenda.any fun a => match a with | .late c | .issue c => rowOf c == p | _ => false
/-- A loop's step that waited in this cycle starts after all, its port having come free in it (R258). -/
def State.stepAgain (s : State) (c : Nat) : State :=
  match (s.ctx c).loop with
  | some l => if decide (0 < l.waited) && !l.shed && !l.halted && stepInputs s c l then (match execLoopStep c s with | .next t => t | _ => s) else s
  | none => s
/-- The row has found a ready context in this cycle, which its grid's window counts once (R123). -/
def State.countReady (s : State) (p : Nat) : State :=
  let now := (s.grid (p / 32)).clk
  if (s.prow p).found = some now then s
  else (s.updRow p fun r => { r with found := some now }).updGrid (p / 32) fun g => { g with winReady := g.winReady + 1 }
/-- A row's cycle: every context is looked at; one of those that are ready is to issue. -/
def State.rowCycle (s : State) (p : Nat) (round : Round) : State :=
  if round == .relook && s.rowTaken p then s else
  let here := ([0, 1, 2, 3].map fun sl => 4 * p + sl).filter fun c => (s.ctx? c).isSome
  let sl := if round == .relook then here.foldl (fun s c => s.stepAgain c) s else s
  let s0 := here.foldl (fun (s : State) c => s.updCtx c fun x => if resting x (s.now c) then { x with batonPending := false } else x) sl
  let r := probeAll here (s0.assignBaton p)
  let ready := r.2
  let s1 := r.1.yieldBaton p ready
  let s2 := if ready.isEmpty then s1 else s1.countReady p
  let count (t : State) (c : Option Nat) : State := if round == .again || round == .relook then t else t.countUnchosen ready c
  match (s2.prow p).chain with
  | some (sl, _) =>
    let c := 4 * p + sl
    if ready.contains c then (count s2 (some c)).chosen c round
    else if round == .relook then s2
    else
      let n := (s2.prow p).chainStall + 1
      let t := s2.updRow p fun q => { q with chainStall := n }
      if n < 64 then count t none else { t with agenda := .event (.chainStallBreak p) :: .row p .broken :: t.agenda }
  | none =>
    match s2.pick p ready with
    | none => s2
    | some c => (count s2 (some c)).chosen c round
/-- The rows of the grid above row p that hold contexts, nearest first. -/
def State.rowsAbove (s : State) (p : Nat) : List Nat :=
  (List.range (p % 32)).reverse.filterMap fun i => let q := p / 32 * 32 + i; if s.ctxs.any fun e => rowOf e.1 == q then some q else none
/-- A chosen context issues after the other rows' choices; if it has become not ready, its row chooses again (R243), and then the rows
above that have not issued, should that choice take a port entry (R258). -/
def issueLate (cid : Nat) (s : State) : Out :=
  match issueNext cid s with
  | .next t => .next (if t.verdict = 3 then { t with agenda := .row (rowOf cid) .again :: (t.rowsAbove (rowOf cid)).map (fun q => .row q .relook) ++ t.agenda } else t)
  | o => o

/-! ### What is due -/
/-- An event as often as it is due. -/
def times (n : Nat) (i : Instr) : List Action := List.replicate n (.event i)
/-- An event when it is due. -/
def when_ (b : Bool) (i : Instr) : List Action := if b then [.event i] else []
/-- What is due for a context at the start of a cycle of its grid. -/
def dueOfCtx (s : State) (cid : Nat) (x : Ctx) : List Action :=
  let now := s.now cid
  ((x.inflight.filter fun r => !r.queued && decide (r.due ≤ now)).map fun r => .event (.resultLands cid r.id))
    ++ times (x.stores.filter fun st => st.bytes.any fun e => decide (st.left + storeDelay (gridOf cid) e.1 ≤ now)).length (.homeStore cid)
    ++ times (x.stores.filter fun st => decide (st.due ≤ now)).length (.storeAck cid)
    ++ when_ x.pendingTrap.isSome (.takeTrap cid)
    ++ (x.bankOps.filter fun o => decide (o.2.2.1 ≤ now)).map (fun o => .event (.bankOpDone (gridOf cid) o.1))
    ++ when_ x.port.full (.linkHandoff cid)
    ++ (match x.loop with | some l => when_ l.doneAt.isSome (.loopComplete cid) | none => [])
/-- A physical row's part of a cycle of its grid: its loops' steps, then its choice. -/
def dueOfRow (here : List (Nat × Ctx)) (p : Nat) : List Action :=
  ((here.filter fun e => rowOf e.1 == p).flatMap fun e => match e.2.loop with
    | some l => [.event (.loopStep e.1)] ++ when_ (decide (48 ≤ l.waited)) (.loopShed e.1)
    | none => []) ++ [.row p .first]
/-- What is due of a grid's Leat: its next beat, answers that this device gives, timeouts. -/
def dueOfLeat (s : State) (g : Nat) (x : Grid) : List Action :=
  let fnOf (o : LeatOp) := (s.blockOf (s.ctx o.cid)).fn
  when_ (!x.leat.isEmpty) (.leatBeatIssue g)
    ++ x.leat.flatMap fun o => o.beats.flatMap fun b =>
      when_ (!b.lost && (b.kind == 0 || b.answer.isSome || (!b.uncached s && (o.writesGlobal || lineHit s (dieOf g) (fnOf o) b)) || (b.uncached s && o.writesGlobal && !b.posted && !o.isAtomic)))
          (.leatBeatComplete g o.id b.id .home)
        ++ when_ (decide (b.expires ≤ x.clk) && b.crosses s g o) (.requestTimeout g o.id b.id)
/-- What is due in a cycle of a grid: landings and engine work, then the rows from the bottom up (R258), then the
special-function pipes. -/
def dueOfGrid (s : State) (g : Nat) : List Action :=
  let x := s.grid g
  let here := s.ctxs.filter fun e => gridOf e.1 == g
  let rows := (here.map fun e => rowOf e.1).eraseDups
  (here.flatMap fun e => dueOfCtx s e.1 e.2)
    ++ (x.fills.filter fun e => decide (e.due ≤ x.clk)).map (fun e => .event (.icacheLineFill g e.fn e.line))
    ++ (here.filter fun e => e.2.leaving).map (fun e => .leave e.1)
    ++ dueOfLeat s g x ++ when_ x.migration.isSome (.migrationCapture g)
    ++ rows.reverse.flatMap (dueOfRow here) ++ rows.map fun p => .event (.sfuAccept p)
/-- Tasks and dies whose start action is owed. -/
def State.owedStarts (s : State) : List (Nat × Nat) :=
  ((s.ctxs.filter fun e => e.2.held && (match (s.blockOf e.2).phase with | .resident | .draining _ => true | _ => false)
    && !(s.taskOf (s.blockOf e.2)).started.contains (dieOf (gridOf e.1))).map fun e => ((s.blockOf e.2).task, dieOf (gridOf e.1))).eraseDups
/-- Bad SRAM lines that can go to a spare now (R334). -/
def State.dueRemaps (s : State) : List Action :=
  let of_ (u : Nat) (ls : List (Nat × Nat)) : List Action := (ls.filter fun e => !s.lineUsed u e.1 e.2).map fun e => .event (.sramLineRemap u e.1 e.2)
  s.grids.flatMap (fun e => of_ e.1 e.2.badLines) ++ s.cdies.flatMap (fun e => of_ (384 + e.1) e.2.badLines) ++ s.mdies.flatMap fun e => of_ (392 + e.1) e.2.badLines
/-- What is due on the dies in a cycle: arrivals, records and blocks, then the Wheels, then what ends. -/
def State.dueOnDies (s : State) : List Action :=
  let ms := List.range 4
  let grids (p : Grid → Bool) : Nat := (s.grids.filter fun e => p e.2).length
  let ctxs (p : Nat → Ctx → Bool) : Nat := (s.ctxs.filter fun e => p e.1 e.2).length
  (s.wakes.map fun w => .event (.watchWakeArrival w.1 w.2.1))
    ++ (s.cdies.flatMap fun e => (e.2.walks.filter fun w => decide (w.2.2 ≤ e.2.clk)).map fun w => .event (.pageWalkComplete e.1 w.1 w.2.1 false))
    ++ (s.funcs.flatMap fun e => when_ e.2.commit.isSome (.uploadCopyValidate e.1)) ++ when_ s.itbusy .itableSwitch
    ++ when_ (!s.dueNodes.isEmpty) .successorStart
    ++ when_ (s.queues.any fun e => !e.2.recs.isEmpty || (!e.2.swapped && !e.2.used.isEmpty)) .queueToBin
    ++ (if s.queues.isEmpty then [] else times 4 .queueSwapOut) ++ (if s.queues.any fun e => e.2.swapped then times 4 .queueSwapIn else [])
    ++ ms.flatMap (fun m => times (s.mdie m).inserts.length (.binInsert m))
    ++ times (s.invoked.filter fun i => i.sent.isNone).length .invokeSend
    ++ times s.invoked.length .invokeGiveUp ++ times s.invoked.length .invokeResend
    ++ times s.retireWrites.length .retireWriteResend ++ times s.retained.length .retainedEntryExpiry
    ++ ms.flatMap (fun m => when_ (!(s.mdie m).ready.isEmpty) (.anchorBlock m))
    ++ ms.flatMap (fun m => match s.preemptDue m with | some b => [.event (.preemptRequest b)] | none => [])
    ++ ms.flatMap (fun m => when_ (!(s.mdie m).ready.isEmpty) (.dispatchOffer m))
    ++ (s.cdies.flatMap fun e => when_ (decide (4096 ≤ e.2.idleCount)) (.stealRequest e.1) ++ when_ (match e.2.steal with | some st => decide (st.due ≤ e.2.clk) | none => false) (.stealAnswer e.1))
    ++ s.owedStarts.map (fun e => .event (.taskStartAction e.1 e.2))
    ++ times (s.blocks.filter fun e => e.2.mustSteal).length .rangeSteal
    ++ times (s.flushes.filter fun w => !w.started).length .rdoneFlush ++ times (s.flushes.filter fun w => !w.done).length .rdoneFlushDone
    ++ when_ (s.blocks.any fun e => match e.2.phase with | .draining _ => true | _ => false) .drainTimeout
    ++ s.blocks.flatMap (fun e => match e.2.phase with
      | .stopping true => [.event (.blockFlushRestart e.1)] | .stopping false => [.event (.blockSave e.1)] | _ => [])
    ++ times (s.blocks.filter fun e => s.mayRetire e.1 e.2).length .blockRetire
    ++ times (s.tasks.filter fun e => s.taskDue e.1 e.2).length .taskComplete
    ++ times (s.replays.filter fun e => s.replayDue e.1 e.2).length .replayComplete ++ s.dueRemaps
    ++ (List.range 16).flatMap (fun c => when_ (decide ((s.cluster c).tick ≤ (s.cdie (c / 2)).clk)) (.wheelStop c))
    ++ when_ s.anyAsked .requestReservation
    ++ times (grids fun x => match x.change with | some (_, t) => decide (t ≤ x.clk) | none => false) .classChangeEffect
    ++ when_ (s.grids.any fun e => e.2.windowOver) .activityWindowEnd
    ++ times (grids fun x => x.warm == 1) .wakeWarmupEnd ++ times (grids fun x => !x.gated && decide (65536 ≤ x.idle)) .gridGate
    ++ times (ctxs fun cid x => match x.yieldedUntil with | some t => decide (t ≤ s.now cid) | none => false) .yieldExpiry
    ++ times (ctxs fun cid x => match x.repollAt with | some t => decide (t < s.now cid) | none => false) .repoll
    ++ times (ctxs fun cid x => match x.parked with | some (.watch (some t)) => decide (t ≤ s.now cid) | _ => false) .mwaitTimeout
    ++ times (grids fun x => x.migration.isSome) .migrationHoldLift ++ times (grids fun x => x.migration.isSome) .migrationHoldRetake
    ++ times (grids fun x => x.migration.isSome) .migrationCaptureTimeout ++ times (grids fun x => x.migration.isSome) .migrationMoveDone

/-! ### The clocks (R5, R122) -/
/-- A table with every key below n present. -/
def fillTbl {α : Type} (d : α) : Nat → Nat → Tbl α → Tbl α
  | 0, _, t => t
  | n + 1, i, [] => (i, d) :: fillTbl d n (i + 1) []
  | n + 1, i, e :: t => if e.1 = i then e :: fillTbl d n (i + 1) t else (i, d) :: fillTbl d n (i + 1) (e :: t)
/-- Grid cycles in ten die cycles (R122). -/
def classRate (cls : Nat) : Nat := match cls with | 0 => 5 | 1 => 8 | 2 => 10 | _ => 12
/-- One grid cycle: the clock, the warm-up, the idle count (R64). -/
def Grid.advance (x : Grid) (busy : Bool) : Grid :=
  { x with clk := x.clk + 1, warm := if 1 < x.warm then x.warm - 1 else x.warm, idle := if busy then 0 else x.idle + 1 }
/-- The grid cycles that a die cycle brings, and the remainder. -/
def Grid.beat (x : Grid) : Nat × Grid :=
  let f := x.frac + classRate (runningClass x)
  (f / 10, { x with frac := f % 10 })
/-- The busy grids: those with a context, engine work, a fill, or a migration. -/
def State.busyGrid (s : State) (g : Nat) (x : Grid) : Bool :=
  (s.ctxs.any fun e => gridOf e.1 == g) || !x.leat.isEmpty || !x.fills.isEmpty || x.migration.isSome
/-- A C-die's cycle: its clock, its idle count (R58), the failed walks that nobody waits for any more. -/
def CDie.advance (x : CDie) (idle : Bool) : CDie :=
  { x with clk := x.clk + 1, placedNow := false, idleCount := if idle then x.idleCount + 1 else 0
           walkFails := x.walkFails.filter fun w => decide (x.clk < w.2.2.2) }
/-- A die cycle: clocks that are not stopped advance; idle grids pass their cycles at once, busy ones on the agenda, after
what is due on the dies. The grids of a gated die stand still with it (log entry 95); in recovery no grid is powered (R353). Tasks that lost requests touched restart first (R355). -/
def State.tick (s0 : State) : State :=
  let s := s0.restartLost
  let cdies := (fillTbl {} 8 0 s.cdies).map fun (e : Nat × CDie) => (e.1, if e.2.gated && !s.cdieBusy e.1 then e.2 else { e.2 with gated := false }.advance (s.dieIdle e.1))
  let mdies := (fillTbl {} 4 0 s.mdies).map fun (e : Nat × MDie) => (e.1,
    let y := { e.2 with gated := e.2.gated && !s.mdieBusy e.1 }
    if y.gated then y else { y with clk := y.clk + 1 })
  let xgated := s.xgated && !s.xdieBusy
  let stopped (g : Nat) (x : Grid) : Bool := x.gated || s.recovery || (s.cdie (dieOf g)).gated
  let beats := (fillTbl {} 384 0 s.grids).map fun (e : Nat × Grid) =>
    if stopped e.1 e.2 then (e.1, 0, e.2)
    else if s.busyGrid e.1 e.2 then (e.1, e.2.beat.1, e.2.beat.2)
    else (e.1, 0, (List.range e.2.beat.1).foldl (fun (x : Grid) _ => x.advance false) e.2.beat.2)
  let t0 : State := { s with cdies := cdies, mdies := mdies, xgated := xgated, xclk := if xgated then s.xclk else s.xclk + 1
                             grids := beats.map fun e => (e.1, e.2.2) }
  { t0 with agenda := t0.dueOnDies ++ (beats.flatMap fun e => List.replicate e.2.1 (.cycle e.1)) ++ when_ t0.dueBin.isSome .binTimerExpiry }
/-- A cycle of a busy grid: its clock, the slots as they now stand, the bank masks that can be taken, the requests at the ranges it
keeps, then what is due. -/
def State.gridCycle (s : State) (g : Nat) : State :=
  let s1 := (s.updGrid g fun x => x.advance (!s.gridIdle g)).reclass g
  let s2 := (((s1.releaseSlots g).takeMasks g).serveRanges g).updGrid g fun x => { x with seen := x.tiles }
  let ended := decide ((s2.grid g).winStart + windowCycles < (s2.grid g).clk)
  { s2 with agenda := when_ ended .activityWindowEnd ++ dueOfGrid s2 g ++ s2.agenda }

end Sys2Proof.Machine
end

