-- ==== Sys2Proof/Machine/Step.lean ====
section
/-! DEFINITION. One step of the part: the next action of the cycle, else what the outside world does next, else the next cycle;
and withFetchWord, which places an instruction where the next step fetches. -/
namespace Sys2Proof.Machine

/-- One step. -/
def step (s : State) : Host.Outcome State Fault Refusal :=
  match s.agenda with
  | .event i :: rest => exec i { s with agenda := rest }
  | .cycle g :: rest => .next (({ s with agenda := rest }).gridCycle g)
  | .row p r :: rest => .next (({ s with agenda := rest }).rowCycle p r)
  | .issue cid :: rest => issueNext cid { s with agenda := rest }
  | .late cid :: rest => issueLate cid { s with agenda := rest }
  | .leave cid :: rest => .next (({ s with agenda := rest }).leaveRow cid)
  | [] => match s.inputs with
    | i :: rest => exec i { s with inputs := rest }
    | [] => .next s.tick

/-- The address at which withFetchWord places an instruction. -/
def placedAt : Nat := 0x10000
/-- The line of the instruction cache that holds it. -/
def placedLine (nbits w : Nat) : List Byte := leBytes 12 (w % 2 ^ nbits) ++ List.replicate 52 (0 : Byte)
/-- An instruction placed where the next step fetches: its bytes in grid 0's instruction cache, and a resident row at slot 0
that is to issue them, with the buckets and the Baton it may need. It stands for the load of a program from outside
(assumption 5). -/
def State.withFetchWord (s : State) (nbits w : Nat) : State :=
  let b := s.nextBlock
  let t := s.nextTask
  let blk : Block := { task := t, fn := 0, slot := 0, node := 0, hdr := { entry := placedAt }, blkid := 0, prio := 0, recs := [], bin := 0, serial := 0, formed := 0
                       phase := .resident, spans := [⟨0, 0, 0x200000⟩], rows := [0] }
  let s1 := (s.setBlock b blk).setTask t { fn := 0, slot := 0, node := 0, replay := none, hdr := { entry := placedAt }, total := 1, dies := [0], started := [0], active := true }
  let s2 := (s1.setCtx 0 { blk := b, pc := BitVec.ofNat 64 placedAt, granted := 32 }).updRow 0 fun r => { r with chain := none, baton := some 0, buf := none }
  let s3 := s2.updGrid 0 fun g => { g with icache := Tables.set (ikey 0 (placedAt / 64)) (placedLine nbits w) g.icache }
  { s3 with nextBlock := b + 1, nextTask := t + 1, agenda := [.issue 0] }

end Sys2Proof.Machine
end

