-- ==== Sys2Proof/Safety.lean ====
section
/-! DEFINITION. The terms that statements use: the part's standing invariant, the registers of a context, when an
instruction's turn has come with nothing left to wait for (R85, R106), and what its issue adds to its own effect. -/
namespace Sys2Proof.Machine

/-! ### The invariant -/
/-- The memories and the device's own registers. -/
structure Core where
  home : Mem
  side : Mem
  scratch : Mem
  slotMem : Mem
  bankMem : Mem
  ranges : Tbl RangeEntry
  itable : List Nat
  itmap : Tbl Word64
  itgen : Nat
  itbusy : Bool
  itstatus : Nat
  dsplit : Nat
  plim : Nat
  pwr : Nat
  clamp : Bool
  ecntDrop : Nat
  ecntLast : Nat
  ecntTrans : Nat
  badPages : List Nat
  hostWins : List (Nat × Nat)
  recovery : Bool
  accId : Nat
/-- The core of a state. -/
def State.core (s : State) : Core := ⟨s.home, s.side, s.scratch, s.slotMem, s.bankMem, s.ranges, s.itable, s.itmap, s.itgen, s.itbusy, s.itstatus, s.dsplit, s.plim, s.pwr, s.clamp, s.ecntDrop, s.ecntLast, s.ecntTrans, s.badPages, s.hostWins, s.recovery, s.accId⟩
/-- What holds of the memories and the device's registers in every safe state. -/
structure Core.Ok (c : Core) : Prop where
  /-- every memory is in its canonical form -/
  home : Mem.wf c.home = true
  side : Mem.wf c.side = true
  scratch : Mem.wf c.scratch = true
  slotMem : Mem.wf c.slotMem = true
  bankMem : Mem.wf c.bankMem = true
  /-- the interleave table names an M-die for each of its 256 entries, and each M-die 64 times (R209) -/
  entries : c.itable.length = 256
  even : uniform c.itable = true
  /-- the table's generation (R210) -/
  gen : 1 ≤ c.itgen ∧ c.itgen ≤ 0xFFFF
  /-- the split's code (R203) -/
  split : c.dsplit ≤ 3
  /-- the power limit and the measured power (R349) -/
  limit : 400 ≤ c.plim ∧ c.plim ≤ 2800
  power : c.pwr < 2 ^ 32
  /-- the error counts (R352) -/
  drops : c.ecntDrop ≤ 65535
  lasting : c.ecntLast ≤ 65535
  transient : c.ecntTrans ≤ 65535
/-- The standing invariant of the part. -/
def State.Inv (s : State) : Prop := s.core.Ok

/-! ### Registers -/
/-- Everything of a context that a program can name or a trap saves, with its place in its block and its PC (R62, R327). -/
structure RegFile where
  blk : Nat
  k : Nat
  rowid : Nat
  bandid : Nat
  pc : Word64
  v : Vector Lanes 64
  s : Vector Word64 160
  m : Vector Word32 15
  acc : Vector Lanes 16
  fpflags : BitVec 5
  trapvec : Word64
  emuvec : Word64
  trapcause : BitVec 8
  trappc : Word64
  trapem : Word64
  trapmask : Word32
  trapaddr : Word64
  trapfut : Word64
  trapop : Word64
  traplit : Word32
  trapd : Byte
  trapa : Byte
  trapb : Byte
  trapc : Byte
  handling : Bool
  deriving DecidableEq, Repr
/-- The registers of a context. -/
abbrev Ctx.file (x : Ctx) : RegFile := { blk := x.blk, k := x.k, rowid := x.rowid, bandid := x.bandid, pc := x.pc, v := x.v, s := x.s, m := x.m, acc := x.acc, fpflags := x.fpflags, trapvec := x.trapvec, emuvec := x.emuvec, trapcause := x.trapcause, trappc := x.trappc, trapem := x.trapem, trapmask := x.trapmask, trapaddr := x.trapaddr, trapfut := x.trapfut, trapop := x.trapop, traplit := x.traplit, trapd := x.trapd, trapa := x.trapa, trapb := x.trapb, trapc := x.trapc, handling := x.handling }
/-- The registers of the context in a slot, none where there is none. -/
def State.fileOf (s : State) (cid : Nat) : Option RegFile := (s.ctx? cid).map Ctx.file
end Sys2Proof.Machine
namespace Sys2Proof

/-- An instruction of a program: a long or a short form (R67). -/
def Instr.program (i : Instr) : Bool := i.long?.isSome || i.expand?.isSome

end Sys2Proof
namespace Sys2Proof.Machine

/-! ### Issue -/
/-- It is the context's turn, its next instruction is i with major opcode op and fields f, and nothing of R85 and R106 stops
it: it may issue in this cycle. -/
structure Ready (s : State) (cid op : Nat) (f : Fields) (i : Instr) : Prop where
  /-- the row has chosen this context (R107), and it is there -/
  turn : s.cur = some cid
  present : (s.ctx? cid).isSome = true
  /-- it is not done, held, parked, trapping, re-polling, nor in a cycle in which it issues nothing -/
  awake : resting (s.ctx cid) (s.now cid) = false
  /-- the encoding obeys every rule (R84) -/
  legal : i.wf = true
  /-- no register it names waits for a result in flight, a latch for any context's of the row, nor fpflags for an instruction that may
  set it (R106, R111, R132) -/
  landed : (s.ctx cid).awaits (namedRegs (s.ctx cid) op f) = false
  latched : s.latchAwaits cid (namedRegs (s.ctx cid) op f) = false
  flags : flagsWait (s.ctx cid) (namedRegs (s.ctx cid) op f) = false
  /-- no acquire is due before it: not a wait's (R303), nor the join of a register it is the first to read (R306) -/
  acquired : (s.ctx cid).acqDue = false
  joined : joinsRead (s.ctx cid) op f = []
  /-- a loop or step word obeys its own rules (R265, R271) -/
  word : badWord s cid op f = false
  /-- sset names a writable register (R169), tret stands in a handler (R333) -/
  special : op = 0x06 → (specialRegs.any fun e => e.1 == sysIndex f && e.2) = true
  handling : op = 0x03 → (s.ctx cid).handling = true
  /-- the latches it reads are valid (R111); the north port is not named in row 0 (R259) -/
  latches : latchLost (readsOf op f) (validLatches (s.prow (rowOf cid)) (planeOf cid)) = false
  north : namesPn op f = true → (s.ctx cid).rowid ≠ 0
  /-- the slots it names are its block's (R243), and nothing it reads is poisoned or fails (R325) -/
  slots : (slotsOf s cid op f).find? (fun e => !s.ownsSlot cid e.1) = none
  clean : spoiled s cid op f = none
  /-- the stalls of R106: ports, slots, queues, accumulators, future entries -/
  unstalled : stalls s cid op f = false
  /-- no future that a register it reads is marked with is pending, or has failed (R281, R282) -/
  settled : pendingMark s (marksRead (s.ctx cid) op f) = none
  sound : failedMark s (marksRead (s.ctx cid) op f) = none
  /-- its buckets are granted (R114), and for a loop the Baton is here (R112) -/
  buckets : priceOf s cid op f ≤ (s.ctx cid).granted
  baton : ¬ (op = 0xC0 ∨ op = 0xC1) ∨ (s.prow (rowOf cid)).baton = some (planeOf cid)

/-- The next instruction in sequence (R68). -/
def State.nextPc (s : State) (cid : Nat) (i : Instr) : Word64 := (s.ctx cid).pc + BitVec.ofNat 64 i.len
/-- What issue adds to the effect t of an instruction: the row's issue slot, the PC, the buckets not used, the block's count,
the row's chain. -/
def State.issued (t s : State) (cid op : Nat) (f : Fields) (pc : Word64) : State :=
  ((t.beginIssue cid).retire cid pc (priceOf s cid op f) op (chainBit (s.ctx cid) op f)).noted 1

end Sys2Proof.Machine
end

