-- ==== Sys2Proof/Certificates/Slice0/Obligations.lean ====
section
/-! DEFINITION. The statements for the provers: what the rules of spec/ say that an instruction, an event or the machine does. An instruction's
statement takes a state in which it may issue (Ready) and says that exec answers a next state and what that state holds. -/

namespace Sys2Proof.Claims
open Sys2Proof Sys2Proof.Machine

/-! ### Terms -/
/-- Every byte of the five memories reads as it did. -/
def SameMem (s t : State) : Prop :=
  (∀ a, t.home.read a = s.home.read a) ∧ (∀ a, t.side.read a = s.side.read a) ∧ (∀ a, t.scratch.read a = s.scratch.read a)
    ∧ (∀ a, t.slotMem.read a = s.slotMem.read a) ∧ (∀ a, t.bankMem.read a = s.bankMem.read a)
/-- From s to t the context cid becomes y, but for what every issue does to it: the PC goes to pc, its grant and its stall records
are used up (Ctx.retire). The registers of every other context stay, and so does every byte of memory. -/
def Leaves (s t : State) (cid : Nat) (y : Ctx) (pc : Word64) : Prop :=
  t.ctx? cid = some (y.retire pc (s.now cid)) ∧ (∀ c, c ≠ cid → t.fileOf c = s.fileOf c) ∧ SameMem s t
/-- The instruction answers a next state, in which the context is y and goes on at pc. -/
def Makes (i : Instr) (s : State) (cid : Nat) (y : Ctx) (pc : Word64) : Prop :=
  ∃ t, Machine.exec i s = .next t ∧ Leaves s t cid y pc
/-- A scalar register written, unless nowb (R80). -/
def putS (x : Ctx) (f : Fields) (val : Word64) : Ctx := match f.d with | .s n => if f.nowb then x else x.setS n.val val | _ => x
/-- A mask register written, unless nowb. -/
def putM (x : Ctx) (f : Fields) (val : Word32) : Ctx := match f.d with | .v n => if f.nowb then x else x.setM n.val val | _ => x
/-- The value of a scalar operand in context x (R72 to R75). -/
def arg (x : Ctx) (f : Fields) (o : Operand) : Word64 := scalarOf x f false o

/-- The low bits of a word as a number of the type: signed for i types, unsigned for n types (R127). -/
def num (t : Ty) (a : Word64) : Int := if tySigned t then (a.setWidth (tyWidth t)).toInt else ((a.setWidth (tyWidth t)).toNat : Int)
/-- The bounds of an integer type. -/
def lowest (t : Ty) : Int := if tySigned t then -(2 ^ (tyWidth t - 1) : Nat) else 0
def highest (t : Ty) : Int := if tySigned t then (2 ^ (tyWidth t - 1) : Nat) - 1 else (2 ^ tyWidth t : Nat) - 1
/-- A w-bit result extended to 64 bits by the type's sign (R127). -/
def extend (t : Ty) (r : BitVec (tyWidth t)) : Word64 := if tySigned t then r.signExtend 64 else r.setWidth 64
/-- Op of R153 on the low w bits of a and b; B[7:0] is the shift amount. -/
def aluBits (op : Nat) (t : Ty) (a b : Word64) : BitVec (tyWidth t) :=
  let x := a.setWidth (tyWidth t)
  let y := b.setWidth (tyWidth t)
  let n := b.toNat % 256
  match op with
  | 0x13 => BitVec.ofInt (tyWidth t) (num t a * num t b / (2 ^ tyWidth t : Nat))
  | 0x16 => x &&& y
  | 0x17 => x ||| y
  | 0x18 => x ^^^ y
  | 0x19 => x <<< n
  | 0x1A => x >>> n
  | 0x1B => x.sshiftRight n
  | 0x1C => if num t a ≤ num t b then x else y
  | 0x1D => if num t b ≤ num t a then x else y
  | 0x1E => BitVec.ofNat _ (if x.toNat = 0 then tyWidth t else tyWidth t - 1 - Nat.log2 x.toNat)
  | _ => BitVec.ofNat _ ((List.range (tyWidth t)).filter fun i => x.getLsbD i).length
/-- The sum, difference and product of R153, saturated where fn[2] says so. -/
def aluSat (op : Nat) (t : Ty) (sat : Bool) (a b : Word64) : BitVec (tyWidth t) :=
  let r := match op with | 0x10 => num t a + num t b | 0x11 => num t a - num t b | _ => num t a * num t b
  BitVec.ofInt _ (if sat then max (lowest t) (min (highest t) r) else r)
/-- Quotient and remainder of R129. -/
def divBits (op : Nat) (t : Ty) (a b : Word64) : BitVec (tyWidth t) :=
  if num t b = 0 then (if op = 0x14 then BitVec.allOnes _ else a.setWidth _)
  else BitVec.ofInt _ (if op = 0x14 then (num t a).tdiv (num t b) else (num t a).tmod (num t b))
end Sys2Proof.Claims

open Sys2Proof Sys2Proof.Machine Sys2Proof.Claims

/-- R153, with R127 and R128: the bitwise, shifting, comparing and counting scalar instructions, and smulh, write Op(x, y) of the low w
bits, extended by the type's sign, to S[D]; nothing else of the context changes but its PC. -/
def Obligations.ScalarAluResult : Prop :=
  ∀ (f : Fields) (s : State) (cid : Nat),
    ∀ e ∈ [(0x13, Instr.smulh f), (0x16, .sand f), (0x17, .sor f), (0x18, .sxor f), (0x19, .sshl f), (0x1A, .sshr f), (0x1B, .ssar f),
        (0x1C, .smin f), (0x1D, .smax f), (0x1E, .sclz f), (0x1F, .spopc f)],
      Ready s cid e.1 f e.2 →
        Makes e.2 s cid (putS (s.ctx cid) f (extend f.mod (aluBits e.1 f.mod (arg (s.ctx cid) f f.a) (arg (s.ctx cid) f f.b)))) (s.nextPc cid e.2)

/-- R153: sadd, ssub and smul write the exact sum, difference or product, clamped to the type's range under the saturation bit fn[2] and
otherwise its low w bits (ssub.n saturates only with the bit set: the model's reading, log entry 84). The short forms of sadd are
sadd.i64 with no saturation; sop 0x07 adds its sign-extended byte (R70). As the model's own choice it rests on the log entries 84. -/
def Obligations.ScalarSumResult : Prop :=
  (∀ (f : Fields) (s : State) (cid : Nat), ∀ e ∈ [(0x10, Instr.sadd f), (0x11, .ssub f), (0x12, .smul f)],
    Ready s cid e.1 f e.2 →
      Makes e.2 s cid (putS (s.ctx cid) f (extend f.mod (aluSat e.1 f.mod (f.fn.getLsbD 2) (arg (s.ctx cid) f f.a) (arg (s.ctx cid) f f.b)))) (s.nextPc cid e.2))
  ∧ (∀ (d a b : Operand) (s : State) (cid : Nat), Ready s cid 0x10 (shortFields .i64 d a b .zero) (.saddI64S d a b) →
      Makes (.saddI64S d a b) s cid (putS (s.ctx cid) (shortFields .i64 d a b .zero)
        (arg (s.ctx cid) (shortFields .i64 d a b .zero) a + arg (s.ctx cid) (shortFields .i64 d a b .zero) b)) ((s.ctx cid).pc + 4))
  ∧ ∀ (d a : Operand) (imm : Byte) (s : State) (cid : Nat), Ready s cid 0x10 (shortFields .i64 d a .zero .zero) (.saddI64ImmS d a imm) →
      Makes (.saddI64ImmS d a imm) s cid (putS (s.ctx cid) (shortFields .i64 d a .zero .zero)
        (arg (s.ctx cid) (shortFields .i64 d a .zero .zero) a + imm.signExtend 64)) ((s.ctx cid).pc + 4)

/-- R129, R151 and R153: sdiv and srem put their result in flight, due 18 cycles after issue: the truncated quotient or the remainder
of the dividend's sign; by zero, all ones in the type's width or the dividend; MIN by −1 wraps to MIN and 0. -/
def Obligations.ScalarDivideResult : Prop :=
  ∀ (f : Fields) (s : State) (cid : Nat), ∀ e ∈ [(0x14, Instr.sdiv f), (0x15, .srem f)],
    Ready s cid e.1 f e.2 →
      let x := s.ctx cid
      let val := extend f.mod (divBits e.1 f.mod (arg x f f.a) (arg x f f.b))
      Makes e.2 s cid { x with
          inflight := x.inflight ++ [{ id := x.nextId, due := s.now cid + 18
                                       writes := match f.d with | .s n => if f.nowb then [] else [.s n.val val] | _ => [] }]
          nextId := x.nextId + 1 } (s.nextPc cid e.2)
namespace Sys2Proof.Claims
open Sys2Proof Sys2Proof.Machine

/-- The low n bits of a word, extended under i64 by their sign and otherwise by zeros. -/
def lowBits (t : Ty) (n : Nat) (a : Word64) : Word64 := if t = .i64 then (a.extractLsb' 0 n).signExtend 64 else (a.extractLsb' 0 n).setWidth 64
/-- The conditions of R154 by fn[2:0]. -/
def holds (t : Ty) (fn : Nat) (a b : Word64) : Bool :=
  match fn with
  | 0 => num t a == num t b | 1 => num t a != num t b | 2 => decide (num t a < num t b) | 3 => decide (num t a ≤ num t b)
  | 4 => decide (num t b < num t a) | 5 => decide (num t b ≤ num t a) | _ => (a.setWidth (tyWidth t) &&& b.setWidth (tyWidth t)) != 0
/-- The immediate k of R157: 16 bits of the L form, or the literal; slui places it 16 bits up. -/
def immediate (up : Bool) (f : Fields) : Word64 :=
  let k : Nat := if isX f then (litOf f).toNat else imm16 f
  let w : Nat := (if isX f then 32 else 16) + (if up then 16 else 0)
  lowBits f.mod w (BitVec.ofNat 64 (if up then k * 65536 else k))
/-- The field of R160 and R161: its length once bits above 63 are dropped. -/
def fieldLen (pos len : Nat) : Nat := min len (64 - pos)
/-- The ones of that field. -/
def fieldOnes (pos n : Nat) : Word64 := ((1#64 <<< n) - 1) <<< pos
/-- The result of the instructions of R154 to R161 on S[A], S[B], S[C] and the old S[D]. -/
def otherBits (op : Nat) (f : Fields) (a b c d : Word64) : Word64 :=
  let pos := b.toNat % 256
  let len := c.toNat % 256
  match op with
  | 0x20 => if holds f.mod (f.fn.toNat % 8) a b then 1 else 0
  | 0x21 => if c ≠ 0 then a else b
  | 0x22 => extend f.mod (a.setWidth _)
  | 0x23 => immediate false f
  | 0x24 => immediate true f
  | 0x25 => a + b * BitVec.ofNat 64 (2 ^ (f.fn.toNat % 8)) + c
  | 0x26 => if pos = 0 then 0 else if 64 ≤ pos then a else lowBits f.mod pos a
  | 0x27 => if len = 0 ∨ 64 ≤ pos then 0 else lowBits f.mod (fieldLen pos len) (a >>> pos)
  | _ => if len = 0 ∨ 64 ≤ pos then d
    else (d &&& ~~~fieldOnes pos (fieldLen pos len)) ||| ((a <<< pos) &&& fieldOnes pos (fieldLen pos len))

/-! ### Branches -/
/-- The offset of R81: bits [41:26] of the L form or the literal, signed. -/
def offset (f : Fields) : Word64 := if isX f then (litOf f).signExtend 64 else (BitVec.ofNat 16 (imm16 f)).signExtend 64
/-- (PC + 4 × offset) mod 2^52. -/
def branchGoal (f : Fields) (pc : Word64) : Word64 := (pc + 4 * offset f) &&& 0xFFFFFFFFFFFFF#64
/-- The address lies in the body that the row's loop buffer holds for this context (R89). -/
def inLoopBody (s : State) (cid : Nat) (target : Word64) : Bool :=
  match (s.prow (rowOf cid)).buf with
  | some b => b.slot == planeOf cid && b.fn == (s.blockOf (s.ctx cid)).fn && b.bytes.isSome && decide (b.base ≤ target.toNat) && decide (target.toNat < b.base + b.len)
  | none => false
/-- The target passes bit 51 of the address space (R81). -/
def passesTop (f : Fields) (pc : Word64) : Bool :=
  let t : Int := (pc.toNat : Int) + 4 * (offset f).toInt
  decide (t < 0 ∨ (2 : Int) ^ 52 ≤ t)
/-- Fetch redirected to the instruction cache: the context issues nothing for 2 cycles (R163). -/
def delayed (s : State) (cid : Nat) (x : Ctx) : Ctx := { x with notBefore := s.now cid + 3 }
/-- A taken branch (R163, R81): no cost to a target in the loop-buffer body, else 2 cycles; one past bit 51 faults at its target's fetch. -/
def redirected (s : State) (cid : Nat) (f : Fields) (x : Ctx) (target : Word64) : Ctx :=
  let y := if inLoopBody s cid target then x else delayed s cid x
  if passesTop f (s.ctx cid).pc then { y with wrapped := true } else y
/-- Whether an offset branch is taken (R162). -/
def taken (op : Nat) (f : Fields) (x : Ctx) : Bool :=
  match op with
  | 0x31 => (if f.fn.getLsbD 0 then arg x f f.a == 0 else arg x f f.a != 0)
  | 0x32 => (maskArg x f.a &&& x.mask 0) == 0
  | 0x33 => (maskArg x f.a &&& x.mask 0) != 0
  | 0x38 => arg x f f.d - 1 != 0
  | _ => true
/-- What an offset branch writes: call the link register, loop its counter; nowb suppresses either (R162). -/
def branchWrites (op : Nat) (f : Fields) (x : Ctx) (next : Word64) : Ctx :=
  if f.nowb then x else if op = 0x35 then x.setS 158 next else if op = 0x38 then putS x f (arg x f f.d - 1) else x

/-! ### Masks -/
/-- The effects of R165 that write a mask. -/
def maskBits (op : Nat) (f : Fields) (x : Ctx) : Word32 :=
  match op with
  | 0x40 => maskArg x f.a &&& maskArg x f.b
  | 0x41 => maskArg x f.a ||| maskArg x f.b
  | 0x42 => maskArg x f.a ^^^ maskArg x f.b
  | 0x43 => maskArg x f.a &&& ~~~maskArg x f.b
  | 0x44 => ~~~maskArg x f.a
  | 0x45 => (arg x f f.a).setWidth 32
  | _ => if (arg x f f.a).toNat < 32 then 1#32 <<< (arg x f f.a).toNat else 0
/-- The effects of R165 that write a scalar. -/
def maskCount (op : Nat) (m : Word32) : Word64 :=
  match op with
  | 0x46 => m.setWidth 64
  | 0x47 => BitVec.ofNat 64 ((List.range 32).filter fun l => m.getLsbD l).length
  | _ => if m = 0 then BitVec.allOnes 64 else BitVec.ofNat 64 ((List.range 32).findIdx fun l => m.getLsbD l)
end Sys2Proof.Claims

/-- R154 to R161: scmp, ssel, smov, sli, slui, sadr, sext, sbfx and sbfi, and the short smov.i64, write what their entries give to S[D];
nothing else of the context changes but its PC. As the model's own choice it rests on the log entries 20. -/
def Obligations.ScalarOtherResult : Prop :=
  (∀ (f : Fields) (s : State) (cid : Nat), ∀ e ∈ [(0x20, Instr.scmp f), (0x21, .ssel f), (0x22, .smov f), (0x23, .sli f), (0x24, .slui f),
        (0x25, .sadr f), (0x26, .sext f), (0x27, .sbfx f), (0x28, .sbfi f)],
    Ready s cid e.1 f e.2 →
      let x := s.ctx cid
      Makes e.2 s cid (putS x f (otherBits e.1 f (arg x f f.a) (arg x f f.b) (arg x f f.c) (arg x f f.d))) (s.nextPc cid e.2))
  ∧ ∀ (d a : Operand) (s : State) (cid : Nat), Ready s cid 0x22 (shortFields .i64 d a .zero .zero) (.smovS d a) →
      Makes (.smovS d a) s cid (putS (s.ctx cid) (shortFields .i64 d a .zero .zero) (arg (s.ctx cid) (shortFields .i64 d a .zero .zero) a))
        ((s.ctx cid).pc + 4)

/-- R162 and R163: an offset branch goes to (PC + 4 × offset) mod 2^52 when its condition holds and otherwise to the next instruction; call
writes lnk and loop its counter unless nowb; a taken branch costs 2 cycles but to a target in the loop-buffer body. R81: one whose target passes
bit 51 is marked for the fault of its target's fetch. The short forms bra and loop are 4 bytes long. -/
def Obligations.BranchResult : Prop :=
  ∀ (f : Fields) (d : Operand) (off : BitVec 16) (s : State) (cid : Nat),
    ∀ e ∈ [(0x30, f, Instr.bra f), (0x31, f, .bc f), (0x32, f, .bmz f), (0x33, f, .bmnz f), (0x35, f, .call f), (0x38, f, .loopBr f),
        (0x30, offFields .zero off, .braS off), (0x38, offFields d off, .loopS d off)],
      Ready s cid e.1 e.2.1 e.2.2 →
        let x := s.ctx cid
        let y := branchWrites e.1 e.2.1 x (s.nextPc cid e.2.2)
        if taken e.1 e.2.1 x then Makes e.2.2 s cid (redirected s cid e.2.1 y (branchGoal e.2.1 x.pc)) (branchGoal e.2.1 x.pc)
        else Makes e.2.2 s cid y (s.nextPc cid e.2.2)

/-- R164: jmp, callr and ret go to S[A], read before lnk is written; callr writes lnk := PC + 8 unless nowb. A target with a low bit set traps
with cause 0x05, one above 52 bits with cause 0x06, and neither changes lnk; otherwise the context issues nothing for 2 cycles. -/
def Obligations.JumpResult : Prop :=
  ∀ (f : Fields) (s : State) (cid : Nat), ∀ e ∈ [(0x34, Instr.jmp f), (0x36, .callr f), (0x37, .ret f)],
    Ready s cid e.1 f e.2 →
      let x := s.ctx cid
      let to_ := arg x f f.a
      if to_.toNat % 4 ≠ 0 then Machine.exec e.2 s = .next (s.trapAt cid (trapOf s cid e.2 5 0 to_ 0))
      else if 2 ^ 52 ≤ to_.toNat then Machine.exec e.2 s = .next (s.trapAt cid (trapOf s cid e.2 6 0 to_ 0))
      else Makes e.2 s cid (delayed s cid (if e.1 = 0x36 ∧ f.nowb = false then x.setS 158 (x.pc + 8) else x)) to_

/-- R165: the mask instructions act on whole masks whatever m0 holds, m15 reading as all ones. The short mand is the long one. -/
def Obligations.MaskResult : Prop :=
  ∀ (f : Fields) (d a b : Operand) (s : State) (cid : Nat),
    (∀ e ∈ [(0x40, f, Instr.mand f), (0x41, f, .mor f), (0x42, f, .mxor f), (0x43, f, .mandn f), (0x44, f, .mnot f), (0x45, f, .mset f),
        (0x49, f, .mlane f), (0x40, shortFields .i8 d a b .zero, .mandS d a b)],
      Ready s cid e.1 e.2.1 e.2.2 →
        Makes e.2.2 s cid (putM (s.ctx cid) e.2.1 (maskBits e.1 e.2.1 (s.ctx cid))) (s.nextPc cid e.2.2))
    ∧ ∀ e ∈ [(0x46, Instr.mget f), (0x47, .mpop f), (0x48, .mffs f)],
      Ready s cid e.1 f e.2 →
        Makes e.2 s cid (putS (s.ctx cid) f (maskCount e.1 (maskArg (s.ctx cid) f.a))) (s.nextPc cid e.2)
namespace Sys2Proof.Claims
open Sys2Proof Sys2Proof.Machine
/-- The registers of every context but one stay, and so does every byte of memory. -/
def Spares (s t : State) (cid : Nat) : Prop := (∀ c, c ≠ cid → t.fileOf c = s.fileOf c) ∧ SameMem s t
/-- The special registers as R170 lists them: index and value. -/
def specials (s : State) (cid : Nat) : List (Nat × Word64) :=
  let x := s.ctx cid
  let b := s.blockOf x
  let n (k : Nat) : Word64 := BitVec.ofNat 64 k
  [(0x001, n x.rowid), (0x002, n b.hdr.rows), (0x003, n x.bandid), (0x004, n b.blkid), (0x005, n (s.logical (gridOf cid))), (0x006, n (cid % 4)),
   (0x007, n (b.spanOn (gridOf cid)).base), (0x008, n b.node), (0x009, match (s.taskOf b).fut with | some h => h.setWidth 64 | none => 0),
   (0x010, n (b.spanOn (gridOf cid)).base), (0x011, n (b.spanOn (gridOf cid)).lim), (0x012, n b.scrbase), (0x013, n b.scrlim),
   (0x020, n (s.cdie (dieOf (gridOf cid))).clk), (0x021, n (runningClass (s.grid (gridOf cid)))), (0x022, n (s.grid (gridOf cid)).cadence),
   (0x023, x.fpflags.setWidth 64), (0x030, x.trapcause.setWidth 64), (0x031, x.trapmask.setWidth 64), (0x032, x.trappc), (0x033, x.trapem),
   (0x034, x.trapop), (0x035, x.traplit.setWidth 64), (0x036, x.trapd.setWidth 64), (0x037, x.trapa.setWidth 64), (0x038, x.trapb.setWidth 64),
   (0x039, x.trapc.setWidth 64), (0x03A, x.trapaddr), (0x03B, x.trapfut), (0x03C, x.trapvec), (0x03D, x.emuvec)]
/-- What sset stores: addresses lose bits [63:52] and [1:0], trapem bits [63:32], fpflags has 5 bits (R132, R170). -/
def ssetStores (idx : Nat) (v : Word64) (x : Ctx) : Ctx :=
  match idx with
  | 0x023 => { x with fpflags := v.setWidth 5 }
  | 0x032 => { x with trappc := v &&& 0xFFFFFFFFFFFFC#64 }
  | 0x033 => { x with trapem := (v.setWidth 32).setWidth 64 }
  | 0x03C => { x with trapvec := v &&& 0xFFFFFFFFFFFFC#64 }
  | _ => { x with emuvec := v &&& 0xFFFFFFFFFFFFC#64 }
/-- The registers of a context that has entered its handler (R326, R327): the trap registers from the trap, trapem from m0, m0 all ones, Handling set,
the PC at the vector; trapmask of an illegal encoding is m0 under the guard as encoded, as entry finds them (R86). -/
def entered (x : Ctx) (tr : Trap) (vec : Word64) : RegFile :=
  { x.file with trapcause := BitVec.ofNat 8 tr.cause, trappc := tr.pc, trapem := (x.mask 0).setWidth 64, trapaddr := tr.addr,
                trapmask := match tr.ill with | some (g, inv) => x.mask 0 &&& (if inv then ~~~x.mask g else x.mask g) | none => tr.mask
                trapfut := tr.fut, trapop := tr.op, traplit := tr.lit, trapd := tr.d, trapa := tr.a, trapb := tr.b, trapc := tr.c,
                m := x.m.setIfInBounds 0 0xFFFFFFFF#32, handling := true, pc := vec }
/-- The vector of a cause: emuvec for an illegal encoding where it is set, else trapvec (R326). -/
def vectorOfCause (x : Ctx) (cause : Nat) : Word64 := if cause = 1 ∧ x.emuvec ≠ 0 then x.emuvec else x.trapvec
end Sys2Proof.Claims

/-- R167: nop, long or short, does nothing but issue. R125, R126, R171, R335: yield lowers the context's rank for 64 cycles at most and ends the chain; perf sets or unsets the row's class request and
reads the running class, or −1 for an operand that names none; icinv empties the grid's instruction cache and dooms its fills; mpoint reads whether
the grid moved, and waits while its migration is pending. R168: done stops the row's issue, whatever m0 holds: its PC passes the instruction, the context's other registers stay, and nothing of it issues any more;
the row is done, and has let its banks go (R249), once its results have landed, its stores are acknowledged and its dot sequencer and bank operations are idle: at once, or in the cycle in which the last of them is over.
R110: yield and done leave the row no chain as they issue, and an mpoint that waits ends the chain of its own context. As the model's own choice it rests on the log entries 35. -/
def Obligations.RowControl : Prop :=
  ((∀ (f : Fields) (s : State) (cid : Nat), ∀ e ∈ [(f, Instr.nop f), (shortFields .i8 .zero .zero .zero .zero, .nopS)],
        Ready s cid 0x00 e.1 e.2 → Makes e.2 s cid (s.ctx cid) (s.nextPc cid e.2))
    ∧ (∀ (f : Fields) (s : State) (cid : Nat),
        let x := s.ctx cid
        let a := arg x f f.a
        let cls : Word64 := BitVec.ofNat 64 (runningClass (s.grid (gridOf cid)) % 4)
        let ended (t : State) : Prop := ∀ n, (t.prow (rowOf cid)).chain ≠ some (planeOf cid, n)
        (Ready s cid 0x07 f (.yield f) → ∃ t, Machine.exec (.yield f) s = .next t ∧ Leaves s t cid { x with yieldedUntil := some (s.now cid + 64) } (s.nextPc cid (.yield f))
            ∧ (x.stage.issued = false → (t.prow (rowOf cid)).chain = none))
        ∧ (Ready s cid 0x08 f (.perf f) → Makes (.perf f) s cid
            (if a = -1 then putS { x with classReq := none } f cls else if a.toNat ≤ 3 then putS { x with classReq := some a.toNat } f cls else putS x f (-1))
            (s.nextPc cid (.perf f)))
        ∧ (Ready s cid 0x09 f (.icinv f) → ∃ t, Machine.exec (.icinv f) s = .next t ∧ Leaves s t cid { x with icinvNext := true } (s.nextPc cid (.icinv f)) ∧
            (t.grid (gridOf cid)).icache = [] ∧ ∀ e ∈ (t.grid (gridOf cid)).fills, e.discard = true)
        ∧ (Ready s cid 0x0A f (.mpoint f) →
            if x.stage = .atPoint (some true) then Makes (.mpoint f) s cid (putS x f 1) (s.nextPc cid (.mpoint f))
            else if (s.grid (gridOf cid)).migration = none then Makes (.mpoint f) s cid (putS x f 0) (s.nextPc cid (.mpoint f))
            else ∃ t, Machine.exec (.mpoint f) s = .next t ∧ t.verdict = 3 ∧ (t.ctx cid).stage = .atPoint none ∧ ended t ∧ t.fileOf cid = s.fileOf cid ∧ Spares s t cid)))
  ∧ (∀ (f : Fields) (s : State) (cid : Nat), ∀ e ∈ [(f, Instr.doneRow f), (shortFields .i8 .zero .zero .zero .zero, .doneS)],
      Ready s cid 0x01 e.1 e.2 →
        let x := s.ctx cid
        ∃ t, Machine.exec e.2 s = .next t ∧ t.verdict = 1 ∧ (t.ctx? cid).isSome = true ∧ (t.ctx cid).file = { x.file with pc := s.nextPc cid e.2 } ∧ Spares s t cid ∧
          (x.stage.issued = false → (t.prow (rowOf cid)).chain = none) ∧
          (if x.inflight = [] ∧ x.stores = [] ∧ x.loop = none ∧ x.bankOps = [] then (t.ctx cid).done = true ∧ (t.ctx cid).banks = 0
           else (t.ctx cid).leaving = true ∧ (t.ctx cid).done = false ∧ (t.ctx cid).banks = x.banks ∧ (t.ctx cid).inflight = x.inflight ∧
            (t.ctx cid).stores = x.stores ∧ (t.ctx cid).loop = x.loop ∧ (t.ctx cid).bankOps = x.bankOps))
  ∧ (∀ (s : State) (cid : Nat) (rest : List Action) (x : Ctx), s.agenda = .leave cid :: rest → s.ctx? cid = some x → x.leaving = true →
      if x.inflight = [] ∧ x.stores = [] ∧ x.loop = none ∧ x.bankOps = [] then
        ∃ t, step s = .next t ∧ t.agenda = rest ∧ (t.ctx? cid).isSome = true ∧ (t.ctx cid).done = true ∧ (t.ctx cid).leaving = false ∧ (t.ctx cid).banks = 0 ∧
          (t.ctx cid).file = x.file ∧ Spares s t cid
      else step s = .next { s with agenda := rest })
  ∧ ∀ (s : State) (cid : Nat) (rest : List Action) (x : Ctx), s.agenda = .issue cid :: rest → s.ctx? cid = some x → x.leaving = true →
      step s = .next (({ s with agenda := rest }).noted 3)

/-- R169 and R170: sget writes to S[D] the special register that bits [37:26] name; a second sget of cycles waits for the next C-die clock edge. R169, R170: sset writes the writable special register that it names, under the register's storage rule, and nothing else of the context but its PC. As the model's own choice it rests on the log entries 14, 62, 76. -/
def Obligations.SpecialRegisters : Prop :=
  (∀ (f : Fields) (s : State) (cid : Nat), Ready s cid 0x05 f (.sget f) → ∀ e ∈ specials s cid, sysIndex f = e.1 →
      let x := s.ctx cid
      if e.1 = 0x020 ∧ x.cyclesAt = some (s.cdie (dieOf (gridOf cid))).clk then
        ∃ t, Machine.exec (.sget f) s = .next t ∧ t.verdict = 3 ∧ t.fileOf cid = s.fileOf cid ∧ Spares s t cid
      else
        Makes (.sget f) s cid (if e.1 = 0x020 then { putS x f e.2 with cyclesAt := some (s.cdie (dieOf (gridOf cid))).clk } else putS x f e.2) (s.nextPc cid (.sget f)))
  ∧ (∀ (f : Fields) (s : State) (cid : Nat), Ready s cid 0x06 f (.sset f) →
      Makes (.sset f) s cid (ssetStores (sysIndex f) (arg (s.ctx cid) f f.a) (s.ctx cid)) (s.nextPc cid (.sset f)))

/-- R326 and R327: a trap found outside a handler with nothing in flight enters it at once: the trap registers take what the trap reports, trapem takes m0, m0
becomes all ones, Handling is set, the PC is the vector's, the row's latches and loop buffer go; while results are in flight it waits for them, its
registers as they were. R328: a trap found while Handling is set does not enter the handler again: the block aborts with the second trap's cause, and the context's registers stay
(the blocks listed under rising numbers, as every state that a run reaches lists them). As the model's own choice it rests on the log entries 11. -/
def Obligations.TrapEntry : Prop :=
  (∀ (s : State) (cid : Nat) (tr : Trap), (s.ctx? cid).isSome = true → (s.ctx cid).handling = false →
      let x := s.ctx cid
      let t := s.takeTrap cid tr
      (x.inflight = [] → vectorOfCause x tr.cause ≠ 0 →
        t.fileOf cid = some (entered x tr (vectorOfCause x tr.cause)) ∧ (t.prow (rowOf cid)).valid = 0 ∧ (t.prow (rowOf cid)).buf = none ∧ Spares s t cid)
      ∧ (x.inflight ≠ [] → t.fileOf cid = s.fileOf cid ∧ (t.ctx cid).pendingTrap = some tr ∧ Spares s t cid))
  ∧ (∀ (s : State) (cid : Nat) (tr : Trap) (b : Block), (s.ctx? cid).isSome = true → (s.ctx cid).handling = true →
      s.block? (s.ctx cid).blk = some b → (s.blocks.map (·.1)).Pairwise (· < ·) →
        (s.takeTrap cid tr).fileOf cid = s.fileOf cid ∧ ((s.takeTrap cid tr).ctx cid).done = true ∧
        ∃ b', (s.takeTrap cid tr).block? (s.ctx cid).blk = some b' ∧ b'.failed = some tr.cause ∧ b'.phase = .aborting)

/-- R332: trap raises cause 0x02 with trapaddr S[A], brk cause 0x03 with its 16-bit code; outside a handler, with nothing in flight and a vector set, the
context enters it with its own PC in trappc. R333: inside a handler tret restores m0 from trapem and the PC from trappc, clears Handling and makes the row's latches invalid. As the model's own choice it rests on the log entries 11. -/
def Obligations.TrapInstructions : Prop :=
  (∀ (f : Fields) (s : State) (cid : Nat),
      ∀ e ∈ [(0x02, Instr.trap f, 2, arg (s.ctx cid) f f.a), (0x04, .brk f, 3, BitVec.ofNat 64 (imm16 f))],
        Ready s cid e.1 f e.2.1 → (s.ctx cid).handling = false → (s.ctx cid).inflight = [] → (s.ctx cid).trapvec ≠ 0 →
          ∃ t, Machine.exec e.2.1 s = .next t ∧ t.verdict = 2 ∧
            t.fileOf cid = some (entered (s.ctx cid) { captured e.2.1 with cause := e.2.2.1, pc := (s.ctx cid).pc, addr := e.2.2.2 } (s.ctx cid).trapvec) ∧ Spares s t cid)
  ∧ (∀ (f : Fields) (s : State) (cid : Nat), Ready s cid 0x03 f (.tret f) →
      ∃ t, Machine.exec (.tret f) s = .next t ∧
        Leaves s t cid { (s.ctx cid).setM 0 ((s.ctx cid).trapem.setWidth 32) with handling := false } (s.ctx cid).trappc ∧
        (t.prow (rowOf cid)).valid = 0)

/-- R84 to R86, R111, R169, R243, R259, R265, R271, R281, R282, R325, R333: the checks before an instruction's meaning trap in this order, each with its cause: an ill-formed
encoding 0x01, a loop or step word that breaks its own rules 0x01, sset of a read-only register and tret outside a handler 0x0C, a lost latch 0x0B, the north port in row 0 0x0A, another block's
slot 0x0E, a poisoned or failing register or port 0x0D; last, once nothing stalls the instruction and its buckets and the Baton are there, a failed mark with its future's cause, address and handle. R106: an
instruction that a result in flight holds back, of its own context in a register that it names, of the row in a latch that it names, or with flags that it reads, issues nothing, and so does one that passes the checks and meets a stall that its entry gives:
the context asks for the Baton no longer, and only the model's own record of the attempt changes besides. R303, R306: the acquire that a wait or a join has left due comes first, once the row's loads have landed, and the context then issues nothing for 16 cycles. As the model's own choice it rests on the log entries 12, 33, 36, 115. -/
def Obligations.ChecksBeforeMeaning : Prop :=
  (∀ (s : State) (cid op : Nat) (f : Fields) (i : Instr) (body : Nat → Fields → State → Res), s.cur = some cid → (s.ctx? cid).isSome = true →
      resting (s.ctx cid) (s.now cid) = false → (s.ctx cid).acqDue = false →
      let x := s.ctx cid
      let named := namedRegs x op f
      let lost := latchLost (readsOf op f) (validLatches (s.prow (rowOf cid)) (planeOf cid))
      let traps (c : Nat) (a h : Word64) : Prop := issue i op f body s = .next (s.trapAt cid (trapOf s cid i c 0 a h))
      let issuesNothing : Prop := issue i op f body s = .next ((s.updCtx cid fun x => { x with batonPending := false }).noted 3)
      let misplaced : Prop := op = 0x06 ∧ (specialRegs.any fun e => e.1 == sysIndex f && e.2) = false ∨ op = 0x03 ∧ x.handling = false
      let foreign := (slotsOf s cid op f).find? fun e => !s.ownsSlot cid e.1
      let ms := marksRead x op f
      (i.wf = false → traps 1 0 0)
      ∧ (i.wf = true → (x.awaits named = true ∨ s.latchAwaits cid named = true ∨ flagsWait x named = true) → issuesNothing)
      ∧ (i.wf = true → x.awaits named = false → s.latchAwaits cid named = false → flagsWait x named = false →
          (badWord s cid op f = true → traps 1 0 0)
          ∧ (badWord s cid op f = false →
            (misplaced → traps 0xC 0 0)
            ∧ (¬ misplaced →
              (lost = true → traps 0xB 0 0)
              ∧ (lost = false →
                (namesPn op f = true → x.rowid = 0 → traps 0xA 0 0)
                ∧ ((namesPn op f = true → x.rowid ≠ 0) →
                  (∀ e, foreign = some e → traps 0xE (BitVec.ofNat 64 e.1) 0)
                  ∧ (foreign = none →
                    (∀ a, spoiled s cid op f = some a → traps 0xD a 0)
                    ∧ (spoiled s cid op f = none → stalls s cid op f = true → issuesNothing)
                    ∧ (spoiled s cid op f = none → stalls s cid op f = false → pendingMark s ms = none → joinsRead x op f = [] → priceOf s cid op f ≤ x.granted →
                        (op = 0xC0 ∨ op = 0xC1 → (s.prow (rowOf cid)).baton = some (planeOf cid)) → ∀ c a h, failedMark s ms = some (c, a, h) → traps c a h))))))))
  ∧ (∀ (s : State) (cid op : Nat) (f : Fields) (i : Instr) (body : Nat → Fields → State → Res), s.cur = some cid → (s.ctx? cid).isSome = true →
      resting (s.ctx cid) (s.now cid) = false → (s.ctx cid).acqDue = true → loadsLanded (s.ctx cid) = true →
      ∃ t, issue i op f body s = .next t ∧ t.verdict = 3 ∧ (t.ctx cid).acqDue = false ∧ (t.ctx cid).notBefore = s.now cid + 16 ∧ t.fileOf cid = s.fileOf cid ∧ Spares s t cid)

namespace Sys2Proof.Claims
open Sys2Proof Sys2Proof.Machine

/-! ### Vector results -/
/-- A vector destination's old value, which lanes that are not written keep (R80, R174, R257). -/
def oldLanes (x : Ctx) (d : Operand) : Lanes := match d with | .v n => x.vreg n.val | .ps => popLanes x.port.cells | _ => Lanes.zero
/-- What a vector result writes when it lands: its register under the mask unless nowb, and a captured latch, whose other lanes hold the
destination's old value (R80, R174). -/
def vecWrites (x : Ctx) (f : Fields) (val : Lanes) (mask : Word32) : List RegWrite :=
  (match f.d with | .v n => if f.nowb then [] else [.v n.val val mask] | _ => [])
    ++ if f.capture then [.latch f.latch.toNat (tab 32 fun l => if mask.getLsbD l then val.get l else (oldLanes x f.d).get l)] else []
/-- The result goes to the port: not where nowb and capture send it to a latch only (R80, R257). -/
def toPort (f : Fields) : Prop := f.d = .ps ∧ ¬ (f.nowb = true ∧ f.capture = true)
/-- The port after an instruction that may push to it (R257, R259): unless the result goes there, or the instruction pops, it is as it was; a push above
the bottom of a band fills it with the active lanes. -/
def Pushed (s : State) (cid op : Nat) (f : Fields) (val : Lanes) (mask : Word32) (p : Port) : Prop :=
  let x := s.ctx cid
  (namesPn op f = false → (¬ toPort f ∨ s.bottom x = true) → p = x.port)
    ∧ (toPort f → s.bottom x = false → p.full = true ∧ p.pushed = s.now cid ∧
        ∀ l, l < 32 → (popLanes p.cells).get l = if mask.getLsbD l then val.get l else (popLanes x.port.cells).get l)
/-- The instruction puts one result in flight, due after lat cycles, with its writes, flags and buckets; it pops the row above where it names pn and
pushes where its destination is ps; nothing else changes of the context x, as the instruction's other effects leave it, but its PC (R106, R174, R258). -/
def SendsFrom (x : Ctx) (i : Instr) (s : State) (cid op : Nat) (f : Fields) (lat : Nat) (writes : List RegWrite) (val : Lanes) (mask : Word32) (fl : BitVec 5)
    (queued canFlag : Bool) : Prop :=
  ∃ t p, Machine.exec i s = .next t ∧ Pushed s cid op f val mask p ∧
    Leaves s t cid { x with
      inflight := x.inflight ++ [{ id := x.nextId, due := s.now cid + lat, writes := writes, flags := fl, buckets := priceOf s cid op f
                                   queued := queued, canFlag := canFlag }]
      nextId := x.nextId + 1, port := p } (s.nextPc cid i)
    ∧ ∀ a, namesPn op f = true → s.above x = some a → a ≠ cid → gridOf a = gridOf cid → (t.ctx a).port = { (s.ctx a).port with full := false }
/-- An instruction with no other effect. -/
def Sends (i : Instr) (s : State) (cid op : Nat) (f : Fields) (lat : Nat) (writes : List RegWrite) (val : Lanes) (mask : Word32) (fl : BitVec 5)
    (queued canFlag : Bool) : Prop := SendsFrom (s.ctx cid) i s cid op f lat writes val mask fl queued canFlag
/-- The context with a store queued for its bytes, if it has any (R198, R206, R218). -/
def storing (s : State) (cid extra : Nat) (bs : List (Space × Nat × Byte)) (x : Ctx) : Ctx :=
  { x with notBefore := s.now cid + 2
           stores := if bs = [] then x.stores
             else x.stores ++ [{ bytes := bs, left := s.now cid + 1 + extra, due := s.now cid + 1 + extra + storeDelays (gridOf cid) bs }] }
/-- The little-endian bytes of the low 8n bits of a value at a place (R9). -/
def bytesAt (p : Place) (n v : Nat) : List (Space × Nat × Byte) := (List.range n).map fun i => (p.sp, p.off + i, BitVec.ofNat 8 (v / 2 ^ (8 * i)))
/-- A vector result of the usual kind. -/
def SendsV (i : Instr) (s : State) (cid op : Nat) (f : Fields) (lat : Nat) (val : Lanes) (fl : BitVec 5) (canFlag : Bool) : Prop :=
  Sends i s cid op f lat (vecWrites (s.ctx cid) f val ((s.ctx cid).active f)) val ((s.ctx cid).active f) fl false canFlag

/-- The sources of a vector instruction (R73 to R75, R174). -/
def srcs (s : State) (cid op : Nat) (f : Fields) : Srcs := srcsOf s cid op f
/-- Element e of width w of a lane. -/
def el (w : Nat) (a : Word32) (e : Nat) : BitVec w := a.extractLsb' (w * e) w
/-- A lane made of elements of width w, element 0 lowest. -/
def ofElems (w : Nat) (h : Nat → BitVec w) : Word32 :=
  BitVec.ofNat 32 ((List.range (32 / w)).foldl (fun acc e => acc + (h e).toNat * 2 ^ (w * e)) 0)
/-- An element as a number of the type (R127). -/
def enum (t : Ty) (a : BitVec (tyWidth t)) : Int := if tySigned t then a.toInt else (a.toNat : Int)
/-- Op of R177 and R190 on one element, saturated under fn[2]. -/
def vintBits (op : Nat) (t : Ty) (sat : Bool) (x y z : BitVec (tyWidth t)) : BitVec (tyWidth t) :=
  let put (r : Int) : BitVec (tyWidth t) := BitVec.ofInt _ (if sat then max (lowest t) (min (highest t) r) else r)
  let n := y.toNat % 256
  match op with
  | 0x50 => put (enum t x + enum t y)
  | 0x51 => put (enum t x - enum t y)
  | 0x52 => put (enum t x * enum t y)
  | 0x53 => BitVec.ofInt _ (enum t x * enum t y / (2 ^ tyWidth t : Nat))
  | 0x54 => put (enum t x * enum t y + enum t z)
  | 0x55 => if enum t x ≤ enum t y then x else y
  | 0x56 => if enum t y ≤ enum t x then x else y
  | 0x57 => put (enum t x).natAbs
  | 0x58 => x &&& y
  | 0x59 => x ||| y
  | 0x5A => x ^^^ y
  | 0x5B => ~~~x
  | 0x5C => x <<< n
  | 0x5D => x >>> n
  | 0x5E => x.sshiftRight n
  | 0x7A => BitVec.ofNat _ (if x.toNat = 0 then tyWidth t else tyWidth t - 1 - Nat.log2 x.toNat)
  | _ => BitVec.ofNat _ ((List.range (tyWidth t)).filter fun i => x.getLsbD i).length
/-- An integer instruction over every element of every lane. -/
def vintLanes (op : Nat) (f : Fields) (v : Srcs) : Lanes :=
  let w := tyWidth f.mod
  tab 32 fun l => ofElems w fun e => vintBits op f.mod (f.fn.getLsbD 2) (el w (v.a.get l) e) (el w (v.b.get l) e) (el w (v.c.get l) e)

/-- A float result with its flags on one element (R176 to R183), x, y and z being bit patterns of the format: sums and products are exact and rounded
once under fn[1:0], saturated under fn[2]. -/
def floatBits (op : Nat) (t : Ty) (fn : Nat) (x y z : Nat) : Nat × BitVec 5 :=
  let p := fpOf t
  let v (n : Nat) : FVal := valF p n
  let sum := sumProducts p (fn % 4) (bitAt fn 2)
  let quiet (r : Nat) (ins : List Nat) : Nat × BitVec 5 := (r, if ins.any fun n => (v n).isSig then fNv else 0)
  match op with
  | 0x60 => sum [] [v x, v y]
  | 0x61 => sum [] [v x, (v y).negate]
  | 0x62 => sum [(v x, v y)] []
  | 0x63 => sum [(v x, v y)] [v z]
  | 0x64 => sum [(v x, v y)] [(v z).negate]
  | 0x65 => sum [((v x).negate, v y)] [v z]
  | 0x66 => minMaxF p false x y
  | 0x67 => minMaxF p true x y
  | 0x68 => quiet (if (v x).isNan then p.qnan else x % p.signBit) [x]
  | 0x69 => quiet (if (v x).isNan then p.qnan else (x + p.signBit) % 2 ^ p.width) [x]
  | 0x6C => quiet (if (v x).isNan then p.qnan else (minMaxF p false (minMaxF p true x y).1 z).1) [x, y, z]
  | 0x6D => vrndElem p (fn % 4) x
  | _ => vscaleElem p fn x (signed p.width y)
/-- The lanes of a float instruction, and the flags of its active lanes (R132). -/
def floatLanes (h : Nat → Nat → Nat → Nat × BitVec 5) (t : Ty) (v : Srcs) (mask : Word32) : Lanes × BitVec 5 :=
  let w := tyWidth t
  let one (l e : Nat) : Nat × BitVec 5 := h (el w (v.a.get l) e).toNat (el w (v.b.get l) e).toNat (el w (v.c.get l) e).toNat
  (tab 32 fun l => ofElems w fun e => BitVec.ofNat w (one l e).1,
   (lanesOf mask).foldl (fun fl l => (List.range (32 / w)).foldl (fun fl e => fl ||| (one l e).2) fl) 0)
/-- A conversion narrows into quarter or half fn of each lane's old value, or widens out of one (R191); a t6 byte's bits [7:6] read 0 (log entry 85). -/
def convLanes (f : Fields) (a old : Lanes) (mask : Word32) : Lanes × BitVec 5 := 
  let src := (tyOf (byteOf f.b)).getD .i8
  let r (l : Nat) := vcvtLane f.mod src (byteOf f.c) f.fn.toNat (old.get l).toNat (a.get l).toNat
  (tab 32 fun l => BitVec.ofNat 32 (r l).1, (lanesOf mask).foldl (fun fl l => fl ||| (r l).2) 0)
end Sys2Proof.Claims

/-- R127, R128, R174, R175, R177, R190: the vector integer instructions put in flight, due after 2 cycles, Op of every element of every lane; only active
lanes of the destination are to be written, and no flag is set. -/
def Obligations.VectorIntResult : Prop :=
  ∀ (f : Fields) (d a b : Operand) (s : State) (cid : Nat),
    ∀ e ∈ [(0x50, f, Instr.vaddInt f), (0x51, f, .vsubInt f), (0x52, f, .vmulInt f), (0x53, f, .vmulh f), (0x54, f, .vmad f), (0x55, f, .vminInt f),
        (0x56, f, .vmaxInt f), (0x57, f, .vabsInt f), (0x58, f, .vand f), (0x59, f, .vor f), (0x5A, f, .vxor f), (0x5B, f, .vnot f), (0x5C, f, .vshl f),
        (0x5D, f, .vshr f), (0x5E, f, .vsar f), (0x5F, f, .vpopc f), (0x7A, f, .vclz f),
        (0x50, shortFields .i32 d a b .zero, .vaddI32S d a b), (0x58, shortFields .i32 d a b .zero, .vandS d a b)],
      Ready s cid e.1 e.2.1 e.2.2 → SendsV e.2.2 s cid e.1 e.2.1 2 (vintLanes e.1 e.2.1 (srcs s cid e.1 e.2.1)) 0 false

/-- R174 to R179, R182, R183: the vector float instructions put in flight, due after 4 cycles, the rounded result of every element of every lane with the
flags that active lanes raise; vscale.sat saturates an infinite element too (the model's reading of R131 against R183). As the model's own choice it rests on the log entries 24. -/
def Obligations.VectorFloatResult : Prop :=
  ∀ (f : Fields) (d a b : Operand) (s : State) (cid : Nat),
    ∀ e ∈ [(0x60, f, Instr.vaddF f), (0x61, f, .vsubF f), (0x62, f, .vmulF f), (0x63, f, .vfma f), (0x64, f, .vfms f), (0x65, f, .vfnma f), (0x66, f, .vminF f),
        (0x67, f, .vmaxF f), (0x68, f, .vabsF f), (0x69, f, .vneg f), (0x6C, f, .vclamp f), (0x6D, f, .vrnd f), (0x6E, f, .vscale f),
        (0x60, shortFields .f32 d a b .zero, .vaddF32S d a b), (0x62, shortFields .f32 d a b .zero, .vmulF32S d a b),
        (0x63, shortFields .f32 d a b d, .vfmaF32S d a b)],
      Ready s cid e.1 e.2.1 e.2.2 →
        let r := floatLanes (floatBits e.1 e.2.1.mod e.2.1.fn.toNat) e.2.1.mod (srcs s cid e.1 e.2.1) ((s.ctx cid).active e.2.1)
        SendsV e.2.2 s cid e.1 e.2.1 4 r.1 r.2 true

/-- R180, R181: vdot2 rounds the exact sum of two products and the F32 addend, if it has one, once to F32; vred reduces the active lanes by the tree of R148 into every
active lane, an inactive lane counting as −0.0 in a sum and as a NaN in a maximum or minimum. As the model's own choice it rests on the log entries 23, 24. -/
def Obligations.VectorReduceResult : Prop :=
  ∀ (f : Fields) (s : State) (cid : Nat),
    let mask := (s.ctx cid).active f
    (Ready s cid 0x6A f (.vdot2 f) →
      let v := srcs s cid 0x6A f
      let z := (srcs s cid 0x6A { f with mod := .f32 }).c
      let r (l : Nat) := dot2Lane f.mod f.fn.toNat (v.a.get l).toNat (v.b.get l).toNat (if f.c = .zero then none else some (z.get l).toNat)
      SendsV (.vdot2 f) s cid 0x6A f 4 (tab 32 fun l => BitVec.ofNat 32 (r l).1) ((lanesOf mask).foldl (fun fl l => fl ||| (r l).2) 0) true)
    ∧ (Ready s cid 0x6B f (.vred f) →
      let r := vredResult f.fn.toNat mask (srcs s cid 0x6B f).a
      SendsV (.vred f) s cid 0x6B f 12 (Lanes.all (BitVec.ofNat 32 r.1)) (if mask = 0 then 0 else r.2) true)

/-- R184: vcmp puts in flight, due after 2 cycles, a mask whose active bits are the condition of R184 on the lanes of a and b and whose other bits are the old mask's. -/
def Obligations.VectorCompareResult : Prop :=
  ∀ (f : Fields) (s : State) (cid : Nat) (n : Fin 64), Ready s cid 0x70 f (.vcmp f) → f.d = .v n →
    let x := s.ctx cid
    let v := srcs s cid 0x70 f
    let r (l : Nat) := vcmpLane f.mod (f.fn.toNat % 8) (v.a.get l).toNat (v.b.get l).toNat
    ∃ val : Word32, (∀ l, l < 32 → val.getLsbD l = if (x.active f).getLsbD l then (r l).1 else (x.mask n.val).getLsbD l) ∧
      Sends (.vcmp f) s cid 0x70 f 2 (if f.nowb then [] else [.m n.val val]) Lanes.zero 0
        ((lanesOf (x.active f)).foldl (fun fl l => fl ||| (r l).2) 0) false (f.mod == .f32)

/-- R185 to R189: vsel, vmov, vbcast, vperm, vrot and vscan give each active lane the lane, or the sum or extreme of lanes, that their entries name; vext reads
one lane into a scalar register. R188: vcompress packs the selected active lanes into the lowest lanes, and writes those alone; vexpand spreads the lowest lanes over the selected
active ones, and writes those alone. As the model's own choice it rests on the log entries 22. -/
def Obligations.VectorLanes : Prop :=
  (∀ (f : Fields) (d a : Operand) (s : State) (cid : Nat),
      let x := s.ctx cid
      let k := (arg x f f.b).toNat % 32
      (∀ e ∈ [(0x71, f, Instr.vsel f, 2, tab 32 fun l => if (maskArg x f.c).getLsbD l then (srcs s cid 0x71 f).a.get l else (srcs s cid 0x71 f).b.get l),
          (0x72, f, .vmov f, 2, (srcs s cid 0x72 f).a),
          (0x72, shortFields .i32 d a .zero .zero, .vmovS d a, 2, (srcs s cid 0x72 (shortFields .i32 d a .zero .zero)).a),
          (0x73, f, .vbcast f, 2, Lanes.all ((srcs s cid 0x73 f).a.get k)),
          (0x75, f, .vperm f, 4, tab 32 fun l => (srcs s cid 0x75 f).a.get (((srcs s cid 0x75 f).b.get l).toNat % 32)),
          (0x76, f, .vrot f, 2, tab 32 fun l => (srcs s cid 0x76 f).a.get ((l + k) % 32)),
          (0x79, f, .vscan f, 4, tab 32 fun l => BitVec.ofNat 32 (vscanLane f.mod (f.fn.toNat % 4) (x.active f) (srcs s cid 0x79 f).a l))],
        Ready s cid e.1 e.2.1 e.2.2.1 → SendsV e.2.2.1 s cid e.1 e.2.1 e.2.2.2.1 e.2.2.2.2 0 false)
      ∧ (Ready s cid 0x74 f (.vext f) →
          Sends (.vext f) s cid 0x74 f 2
            (match f.d with | .s n => if f.nowb then [] else [.s n.val (extend f.mod ((((srcs s cid 0x74 f).a.get k).setWidth 64).setWidth _))] | _ => [])
            Lanes.zero 0 0 false false))
  ∧ (∀ (f : Fields) (s : State) (cid : Nat),
      let x := s.ctx cid
      let m := x.active f &&& maskArg x f.b
      let sel := lanesOf m
      (Ready s cid 0x77 f (.vcompress f) → ∃ (val : Lanes) (w : Word32), (∀ j, j < 32 → w.getLsbD j = decide (j < sel.length))
          ∧ (∀ j (h : j < sel.length), val.get j = (srcs s cid 0x77 f).a.get sel[j])
          ∧ Sends (.vcompress f) s cid 0x77 f 4 (vecWrites x f val w) val w 0 false false)
      ∧ (Ready s cid 0x78 f (.vexpand f) → ∃ val : Lanes, (∀ j (h : j < sel.length), val.get sel[j] = (srcs s cid 0x78 f).a.get j)
          ∧ Sends (.vexpand f) s cid 0x78 f 4 (vecWrites x f val m) val m 0 false false))

/-- R191, R192: vcvt, vpack and vunpack convert, pack and widen the elements of each active lane, due after 4 cycles; vcvt raises the flags of its active lanes, and asks of the rounded value whether it lies in an integer type's range (log entry 110). R193: vcvto converts every active element that is no outlier and raises the flags of these; an outlier has code 0, its lane's
bit set in the mask, whose other active bits are clear, and its BF16 at the list's next place; the control word's pointer moves past the list, its other bits stay; due after 8 cycles. A place of the list outside the block's own side memory traps with cause 0x04, an odd
pointer where there is an outlier with cause 0x05, with the lanes that fail. As the model's own choice it rests on the log entries 26, 27, 85, 110. -/
def Obligations.VectorConversions : Prop :=
  (∀ (f : Fields) (s : State) (cid : Nat),
      let x := s.ctx cid
      (Ready s cid 0x80 f (.vcvt f) →
        let r := convLanes f (srcs s cid 0x80 f).a (oldLanes x f.d) (x.active f)
        SendsV (.vcvt f) s cid 0x80 f 4 r.1 r.2 true)
      ∧ (Ready s cid 0x82 f (.vpack f) → SendsV (.vpack f) s cid 0x82 f 4
          (tab 32 fun l => BitVec.ofNat 32 (vpackLane f.mod (f.fn.getLsbD 2) ((srcs s cid 0x82 { f with mod := twiceTy f.mod }).a.get l).toNat ((srcs s cid 0x82 { f with mod := twiceTy f.mod }).b.get l).toNat)) 0 false)
      ∧ (Ready s cid 0x83 f (.vunpack f) → SendsV (.vunpack f) s cid 0x83 f 4
          (tab 32 fun l => BitVec.ofNat 32 (vunpackLane f.mod (f.fn.getLsbD 3) ((srcs s cid 0x83 f).a.get l).toNat)) 0 false))
  ∧ (∀ (f : Fields) (s : State) (cid : Nat) (m : Fin 64) (k : Fin 160), Ready s cid 0x81 f (.vcvto f) → f.c = .v m → f.b = .s k →
      let x := s.ctx cid
      let src : Ty := if f.fn.getLsbD 3 then .bf16 else .f32
      let cw := arg x f f.b
      let els := vcvtoElems f.mod src (cw.toNat % 2 ^ 31) (x.active f) (srcs s cid 0x81 { f with mod := src }).a
      let outs := els.filter (·.out)
      let place (j : Nat) : Nat := bitsOf cw 52 32 + 2 * j
      let sp := (s.blockOf x).spanOn (gridOf cid)
      let off (j : Nat) : Prop := j < outs.length ∧ ¬ (sp.base ≤ place j ∧ place j + 2 ≤ sp.lim)
      let laneOf (j : Nat) : Option Nat := outs[j]?.map (·.lane)
      let traps (c : Nat) (mask : Word32) (a : Nat) : Prop := Machine.exec (.vcvto f) s = .next (s.trapAt cid (trapOf s cid (.vcvto f) c mask (BitVec.ofNat 64 a) 0))
      (∀ j, off j → (∀ i, i < j → ¬ off i) → ∃ mask : Word32, (∀ l, l < 32 → (mask.getLsbD l = true ↔ ∃ i, off i ∧ laneOf i = some l)) ∧ traps 4 mask (place j))
      ∧ ((∀ j, ¬ off j) → outs ≠ [] → place 0 % 2 = 1 → ∃ mask : Word32, (∀ l, l < 32 → (mask.getLsbD l = true ↔ ∃ o ∈ outs, o.lane = l)) ∧ traps 5 mask (place 0))
      ∧ ((∀ j, ¬ off j) → (outs ≠ [] → place 0 % 2 = 0 ∧ x.stores.length < 16) →
          (∀ j, j < outs.length → s.bankHeld cid (gridOf cid) (bankOf (place j)) = false ∧ ∀ e ∈ x.bankOps, e.2.1.getLsbD (bankOf (place j)) = false) →
        ∃ (val : Lanes) (mOut : Word32) (cw2 : Word64),
          (∀ l, l < 32 → mOut.getLsbD l = if (x.active f).getLsbD l then outs.any (·.lane == l) else (x.mask m.val).getLsbD l)
          ∧ (∀ o ∈ els, elem (tyWidth f.mod) (val.get o.lane).toNat (bitsOf cw 55 53 % (tyPerLane f.mod / tyPerLane src) * tyPerLane src + o.i) = o.code)
          ∧ bitsOf cw2 31 0 = bitsOf cw 31 0 ∧ bitsOf cw2 63 53 = bitsOf cw 63 53 ∧ bitsOf cw2 52 32 = place outs.length % 2 ^ 21
          ∧ SendsFrom (if outs = [] then x else storing s cid 0 ((List.range outs.length).flatMap fun j =>
                bytesAt { lane := 0, sp := .side (gridOf cid), off := place j } 2 ((outs[j]?.map (·.bf)).getD 0)) x)
              (.vcvto f) s cid 0x81 f 8 (vecWrites x f val (x.active f) ++ [.m m.val mOut, .s k.val cw2]) val (x.active f)
              (els.foldl (fun fl o => fl ||| o.fl) 0) false true))

/-- R194 to R196: a special function's result goes to the row's queue at issue and lands 12 cycles after the pipe accepts it; every lane's element is the function's
value, exact or one of its two neighbours (the choice is free: log entry 4). As the model's own choice it rests on the log entries 25. -/
def Obligations.SpecialFunctionResult : Prop :=
  ∀ (f : Fields) (s : State) (cid : Nat), ∀ e ∈ [(0x84, Instr.vrcp f), (0x85, .vrsq f), (0x86, .vsqrt f), (0x87, .vexp2 f), (0x88, .vlog2 f), (0x89, .vsin f),
      (0x8A, .vcos f), (0x8B, .vtanh f), (0x8C, .vsigm f)],
    Ready s cid e.1 f e.2 →
      let r := floatLanes (fun x _ _ => sfuElem e.1 f.mod f.fn.toNat x) f.mod (srcs s cid e.1 f) ((s.ctx cid).active f)
      Sends e.2 s cid e.1 f 12 (vecWrites (s.ctx cid) f r.1 ((s.ctx cid).active f)) r.1 ((s.ctx cid).active f) r.2 true true
      ∧ ∀ t, Machine.exec e.2 s = .next t → (t.prow (rowOf cid)).sfuQueue = (s.prow (rowOf cid)).sfuQueue ++ [(cid, (s.ctx cid).nextId)]
namespace Sys2Proof.Claims
open Sys2Proof Sys2Proof.Machine
/-- The accesses of an element-wise load or store, one for each active lane: Addr(l) of R218, with its base, its index and the log of its scale. -/
def laneAccesses (x : Ctx) (f : Fields) (base index : Operand) (scale : Nat) : List Access :=
  (lanesOf (x.active f)).map fun l => ⟨l, baseOf x base l + (indexOf x index l <<< scale) + scalarOf x f true f.c⟩
/-- The one access of a scalar load or store. -/
def rowAccess (x : Ctx) (f : Fields) (base index : Operand) (scale : Nat) : List Access :=
  [⟨0, baseOf x base 0 + (indexOf x index 0 <<< scale) + scalarOf x f true f.c⟩]
/-- The write of a scalar result that lands later, unless nowb. -/
def sWrites (f : Fields) (val : Word64) : List RegWrite := match f.d with | .s n => if f.nowb then [] else [.s n.val val] | _ => []
/-- A load or an atomic in flight: what it writes, its places, and its poison if the storage of one that it reads at home is bad (R106, R325). -/
def loading (s : State) (cid lat n : Nat) (writes : List RegWrite) (ps home : List Place) : InFlight :=
  { id := (s.ctx cid).nextId, due := s.now cid + lat, writes := writes, loadAddr := ps.head?.map (·.addr), lines := placeLines n home
    poison := if (placeLines n home).any s.lineBad then ps.head?.map (·.addr) else none }
/-- The context with a load put in flight; it issues nothing more until the checks of R199 are done. -/
def loads (s : State) (cid lat n : Nat) (writes : List RegWrite) (ps home : List Place) (x : Ctx) : Ctx :=
  { x with notBefore := s.now cid + 2, inflight := x.inflight ++ [loading s cid lat n writes ps home], nextId := x.nextId + 1 }
/-- The state once a row of grid g has loaded n bytes from each of the places, one after the other (R205). -/
def afterLoads (s : State) (g n : Nat) (ps : List Place) : State := ps.foldl (fun u p => (u.loadBytes g p.sp p.off n).1) s
/-- What it then loads from place p. -/
def loaded (s : State) (g n : Nat) (pre : List Place) (p : Place) : Nat := leNat ((afterLoads s g n pre).loadBytes g p.sp p.off n).2
/-- The place of the spill stack's top (R222). -/
def stackAt (cid : Nat) (a : Word64) : Place := { lane := 0, sp := .side (gridOf cid), off := a.toNat, addr := a }
/-- n bytes at an address lie in the block's side memory on its grid. -/
def onStack (s : State) (cid : Nat) (a : Word64) (n align : Nat) : Prop :=
  let sp := (s.blockOf (s.ctx cid)).spanOn (gridOf cid)
  sp.base ≤ a.toNat ∧ a.toNat + n ≤ sp.lim ∧ a.toNat % align = 0
/-- The instruction traps before any effect of its own: memory is as it was, and so are the context's scalar and vector registers and its accumulators (R199, R324). -/
def TrapsWhole (i : Instr) (s : State) (cid cause : Nat) (mask : Word32) (addr : Word64) : Prop :=
  ∃ t, Machine.exec i s = .next t ∧ t = s.trapAt cid (trapOf s cid i cause mask addr 0) ∧ SameMem s t
    ∧ (t.ctx cid).s = (s.ctx cid).s ∧ (t.ctx cid).v = (s.ctx cid).v ∧ (t.ctx cid).acc = (s.ctx cid).acc
/-- What the checks of an access of the spill stack find at an address: outside the block's side memory cause 0x04, else misaligned cause 0x05 (R199, R222, R223). -/
def stackCause (s : State) (cid : Nat) (a : Word64) (n align : Nat) : Option Nat :=
  let sp := (s.blockOf (s.ctx cid)).spanOn (gridOf cid)
  if ¬ (sp.base ≤ a.toNat ∧ a.toNat + n ≤ sp.lim) then some 4 else if a.toNat % align ≠ 0 then some 5 else none
/-- The entry that a pn source takes leaves the port of the row above: a register's full bit clears and its data stays, an edge link loses its oldest entry (R256, R260). -/
def Popped (s t : State) (cid op : Nat) (f : Fields) : Prop :=
  namesPn op f = true → ∀ a, s.above (s.ctx cid) = some a → a ≠ cid → (t.ctx a).port =
    if gridOf a = gridOf cid then { (s.ctx a).port with full := false } else { (s.ctx a).port with link := (s.ctx a).port.link.drop 1 }
/-- A byte of side memory or of a scratchpad, by its place. -/
def byteAt (s : State) (sp : Space) (off : Nat) : Byte := match sp with | .side g => s.side.read (2 ^ 21 * g + off) | .scratch d => s.scratch.read (2 ^ 27 * d + off)
/-- A byte of side memory (false) or of a scratchpad (true), by its number in that memory. -/
def placeKey (sp : Space) (off : Nat) : Bool × Nat := match sp with | .side g => (false, 2 ^ 21 * g + off) | .scratch d => (true, 2 ^ 27 * d + off)
/-- The word at place p once lanes of these places have gone before: each that meets it changes it by its step (R225). -/
def wordAfter (s : State) (change : Nat → Place → Nat) (pre : List Place) (p : Place) : Nat :=
  pre.foldl (fun v q => if placeKey q.sp q.off = placeKey p.sp p.off then change v q % 2 ^ 32 else v) (leNat (s.readSpace p.sp p.off 4))
/-- Every byte of memory reads as it did but those that are excepted. -/
def SameBut (s t : State) (sides scratches : Nat → Prop) : Prop :=
  (∀ a, t.home.read a = s.home.read a) ∧ (∀ a, ¬ sides a → t.side.read a = s.side.read a) ∧ (∀ a, ¬ scratches a → t.scratch.read a = s.scratch.read a)
    ∧ (∀ a, t.slotMem.read a = s.slotMem.read a) ∧ ∀ a, t.bankMem.read a = s.bankMem.read a
/-- The bytes of side memory, and of the scratchpads, that accesses of n bytes touch. -/
def sideOf (ps : List Place) (n a : Nat) : Prop := ∃ p ∈ ps, ∃ g, p.sp = .side g ∧ 2 ^ 21 * g + p.off ≤ a ∧ a < 2 ^ 21 * g + p.off + n
def scratchOf (ps : List Place) (n a : Nat) : Prop := ∃ p ∈ ps, ∃ d, p.sp = .scratch d ∧ 2 ^ 27 * d + p.off ≤ a ∧ a < 2 ^ 27 * d + p.off + n
end Sys2Proof.Claims

/-- R198 to R201: a local access lands in the block's own side memory below 2 MiB, in the side memory of a logical grid of its cluster from 16 MiB up, in its scratchpad
allocation, or nowhere. R198, R199, R201: the checks of an access run over all its lanes before any byte moves: the lanes outside every allocation raise cause 0x04 and come first, then those
misaligned raise cause 0x05; trapmask names the failing lanes (none at row level) and trapaddr is the lowest one's address. As the model's own choice it rests on the log entries 19, 26. -/
def Obligations.LocalAccessChecks : Prop :=
  (∀ (s : State) (cid : Nat) (addr : Word64) (n : Nat),
      let b := s.blockOf (s.ctx cid)
      let a := addr.toNat
      (a < 0x200000 → s.resolve cid addr n = if (b.spanOn (gridOf cid)).base ≤ a ∧ a + n ≤ (b.spanOn (gridOf cid)).lim then some (.side (gridOf cid), a) else none)
      ∧ (∀ (lg o : Nat), lg < 24 → o < 0x200000 → a = 0x1000000 + 0x200000 * lg + o →
          ∀ sp, b.span? (24 * clusterOf (gridOf cid) + (s.cluster (clusterOf (gridOf cid))).map.getD lg 0) = some sp →
            s.resolve cid addr n = if sp.base + o + n ≤ sp.lim then some (.side (24 * clusterOf (gridOf cid) + (s.cluster (clusterOf (gridOf cid))).map.getD lg 0), sp.base + o) else none)
      ∧ (0x10000000 ≤ a → s.resolve cid addr n = if b.scrbase ≤ a ∧ a + n ≤ b.scrlim then some (.scratch (dieOf (gridOf cid)), a - 0x10000000) else none))
  ∧ (∀ (s : State) (cid n align : Nat) (row : Bool) (as : List Access),
      let out (a : Access) : Bool := (s.resolve cid a.addr n).isNone
      let odd (a : Access) : Bool := a.addr.toNat % align != 0
      (∀ a, (as.filter out).head? = some a →
        ∃ m, checkAccesses s cid n align row as = .error (4, m, a.addr) ∧ ∀ l, l < 32 → m.getLsbD l = (!row && as.any fun b => b.lane == l && out b))
      ∧ ((∀ a ∈ as, out a = false) →
          (∀ a, (as.filter odd).head? = some a →
            ∃ m, checkAccesses s cid n align row as = .error (5, m, a.addr) ∧ ∀ l, l < 32 → m.getLsbD l = (!row && as.any fun b => b.lane == l && odd b))
          ∧ ((∀ a ∈ as, odd a = false) → ∃ ps, checkAccesses s cid n align row as = .ok ps ∧ ps.map (fun p => (p.lane, p.addr)) = as.map (fun a => (a.lane, a.addr))
              ∧ ∀ p ∈ ps, s.resolve cid p.addr n = some (p.sp, p.off))))

/-- R198, R205, R218 to R221: ld, its short form, ldb and sld put in flight the bytes of their places, extended by the type's sign: those of the context's own grid as memory holds them, those of another
grid's side memory or of the scratchpad through the grid's read cache, lane after lane: a word that is valid there when its lane looks as the cache holds it, another one as its home holds it, and then the
whole line, its valid words with it, is filled from home (which words a fill refreshes is the model's choice, log entry 111); nothing else of the
context changes but its PC, and it issues nothing for the cycle of its checks. An access that fails a check traps. As the model's own choice it rests on the log entries 6, 18, 21, 26, 57, 82, 111. -/
def Obligations.LoadResult : Prop :=
  (∀ (s : State) (g off : Nat) (sp : Space), (s.loadBytes g sp off 1).2 = [if sp = .side g then byteAt s sp off else
      match Tables.get? (s.grid g).rcache (lineKey sp off) with
      | some l => if l.valid.getLsbD (off % 64 / 4) then l.bytes.getD (off % 64) 0 else byteAt s sp off
      | none => byteAt s sp off])
  ∧ ∀ (f : Fields) (d a : Operand) (s : State) (cid : Nat),
    let g := gridOf cid
    let x := s.ctx cid
    (∀ e ∈ [(0x90, f, Instr.ld f), (0x90, shortFields .i32 d a .zero .zero, .ldI32S d a)], Ready s cid e.1 e.2.1 e.2.2 →
      let n := tyWidth e.2.1.mod / 8
      match checkAccesses s cid n n false (laneAccesses x e.2.1 e.2.1.a e.2.1.b (e.2.1.fn.toNat % 8)) with
      | .error c => Machine.exec e.2.2 s = .next (s.trapAt cid (trapOf s cid e.2.2 c.1 c.2.1 c.2.2 0))
      | .ok ps => loadWait s cid n ps = false →
        ∃ val : Lanes, (∀ p ∈ ps, p.sp = .side g → val.get p.lane = BitVec.ofNat 32 (ext32 e.2.1.mod (leNat (s.readSpace p.sp p.off n))))
          ∧ (∀ pre p post, ps = pre ++ p :: post → val.get p.lane = BitVec.ofNat 32 (ext32 e.2.1.mod (loaded s g n pre p)))
          ∧ Makes e.2.2 s cid (loads s cid (loadDelay s g n ps) n (vecWrites x e.2.1 val (x.active e.2.1)) ps (s.missed g n ps) x) (s.nextPc cid e.2.2))
    ∧ (Ready s cid 0x94 f (.ldb f) →
      match checkAccesses s cid 4 4 false ((lanesOf (x.active f)).map fun l => ⟨l, baseOf x f.a l + scalarOf x f true f.c + BitVec.ofNat 64 (4 * l)⟩) with
      | .error c => Machine.exec (.ldb f) s = .next (s.trapAt cid (trapOf s cid (.ldb f) c.1 c.2.1 c.2.2 0))
      | .ok ps => loadWait s cid 4 ps = false →
        ∃ val : Lanes, (∀ p ∈ ps, p.sp = .side g → val.get p.lane = BitVec.ofNat 32 (leNat (s.readSpace p.sp p.off 4)))
          ∧ (∀ pre p post, ps = pre ++ p :: post → val.get p.lane = BitVec.ofNat 32 (loaded s g 4 pre p))
          ∧ Makes (.ldb f) s cid (loads s cid (longest s g 4 ps) 4 (vecWrites x f val (x.active f)) ps (s.missed g 4 ps) x) (s.nextPc cid (.ldb f)))
    ∧ (Ready s cid 0x92 f (.sld f) →
      let n := tyWidth f.mod / 8
      match checkAccesses s cid n n true (rowAccess x f f.a f.b (f.fn.toNat % 8)) with
      | .error c => Machine.exec (.sld f) s = .next (s.trapAt cid (trapOf s cid (.sld f) c.1 c.2.1 c.2.2 0))
      | .ok ps => loadWait s cid n ps = false →
        ∃ val : Word64, (∀ p ∈ ps, p.sp = .side g → val = extend f.mod (BitVec.ofNat _ (leNat (s.readSpace p.sp p.off n))))
          ∧ (∀ p ∈ ps, val = extend f.mod (BitVec.ofNat _ (loaded s g n [] p)))
          ∧ Makes (.sld f) s cid (loads s cid (loadDelay s g n ps) n (sWrites f val) ps (s.missed g n ps) x) (s.nextPc cid (.sld f)))

/-- R198, R206, R218 to R220: st, its short form and sst queue a store of exactly the bytes of their data at their places, lanes in increasing order; no register changes but the PC and no
byte of memory yet; data that is pn is popped from the port of the row above, and the context's own port stays. An access that fails a check traps. As the model's own choice it rests on the log entries 6, 18, 26, 79. -/
def Obligations.StoreResult : Prop :=
  ∀ (f : Fields) (d a : Operand) (s : State) (cid : Nat),
    let x := s.ctx cid
    (∀ e ∈ [(f, Instr.st f), (shortFields .i32 d a .zero .zero, .stI32S d a)], Ready s cid 0x91 e.1 e.2 →
      let n := tyWidth e.1.mod / 8
      match checkAccesses s cid n n false (laneAccesses x e.1 e.1.d e.1.b (e.1.fn.toNat % 8)) with
      | .error c => Machine.exec e.2 s = .next (s.trapAt cid (trapOf s cid e.2 c.1 c.2.1 c.2.2 0))
      | .ok ps => bankWait s cid n ps = false →
        ∃ t p, Machine.exec e.2 s = .next t ∧ (s.above x ≠ some cid → p = x.port) ∧ Popped s t cid 0x91 e.1 ∧
          Leaves s t cid (storing s cid (conflicts ps) (ps.flatMap fun q => bytesAt q n ((srcs s cid 0x91 e.1).a.get q.lane).toNat) { x with port := p }) (s.nextPc cid e.2))
    ∧ (Ready s cid 0x93 f (.sst f) →
      let n := tyWidth f.mod / 8
      match checkAccesses s cid n n true (rowAccess x f f.d f.b (f.fn.toNat % 8)) with
      | .error c => Machine.exec (.sst f) s = .next (s.trapAt cid (trapOf s cid (.sst f) c.1 c.2.1 c.2.2 0))
      | .ok ps => bankWait s cid n ps = false →
          Makes (.sst f) s cid (storing s cid 0 (ps.flatMap fun q => bytesAt q n (arg x f f.a).toNat) x) (s.nextPc cid (.sst f)))

/-- R222, R223: push and vspill move ssp down and queue a store of the register's bytes at the new top; pop and vfill put the bytes at the top in flight and move ssp up; nowb
on pop keeps the register only. R199: a top outside the block's side memory raises cause 0x04, a misaligned one cause 0x05, with no lanes and the top's address; ssp, the registers and memory then stay. As the model's own choice it rests on the log entries 26. -/
def Obligations.StackResult : Prop :=
  ∀ (f : Fields) (s : State) (cid : Nat),
    let x := s.ctx cid
    let top := x.sreg 159
    (Ready s cid 0x97 f (.push f) → onStack s cid (top - 8) 8 8 → bankWait s cid 8 [stackAt cid (top - 8)] = false →
      Makes (.push f) s cid ((storing s cid 0 (bytesAt (stackAt cid (top - 8)) 8 (arg x f f.a).toNat) x).setS 159 (top - 8)) (s.nextPc cid (.push f)))
    ∧ (Ready s cid 0x98 f (.pop f) → onStack s cid top 8 8 → loadWait s cid 8 [stackAt cid top] = false →
      Makes (.pop f) s cid ((loads s cid 8 8 (sWrites f (BitVec.ofNat 64 (leNat (s.readSpace (.side (gridOf cid)) top.toNat 8)))) [stackAt cid top] [stackAt cid top] x).setS 159 (top + 8)) (s.nextPc cid (.pop f)))
    ∧ (∀ v : Fin 64, f.a = .v v → Ready s cid 0x95 f (.vspill f) → onStack s cid (top - 128) 128 4 → bankWait s cid 128 [stackAt cid (top - 128)] = false →
      Makes (.vspill f) s cid ((storing s cid 0 ((List.range 32).flatMap fun l => bytesAt { stackAt cid (top - 128) with off := (top - 128).toNat + 4 * l } 4 ((x.vreg v.val).get l).toNat) x).setS
        159 (top - 128)) (s.nextPc cid (.vspill f)))
    ∧ (∀ v : Fin 64, f.d = .v v → Ready s cid 0x96 f (.vfill f) → onStack s cid top 128 4 → loadWait s cid 128 [stackAt cid top] = false →
      Makes (.vfill f) s cid ((loads s cid 8 128 [.v v.val (tab 32 fun l => BitVec.ofNat 32 (leNat (s.readSpace (.side (gridOf cid)) (top.toNat + 4 * l) 4))) 0xFFFFFFFF#32]
        [stackAt cid top] [stackAt cid top] x).setS 159 (top + 128)) (s.nextPc cid (.vfill f)))
    ∧ ∀ e ∈ [(0x97, Instr.push f, top - 8, 8, 8), (0x98, .pop f, top, 8, 8), (0x95, .vspill f, top - 128, 128, 4), (0x96, .vfill f, top, 128, 4)],
        Ready s cid e.1 f e.2.1 → ∀ c, stackCause s cid e.2.2.1 e.2.2.2.1 e.2.2.2.2 = some c → TrapsWhole e.2.1 s cid c 0 e.2.2.1

/-- R224 and R305: a release waits until the row's stores are acknowledged, an acquire until its loads have landed; an acquire drops the words of the grid's read cache that the grid does
not own and holds the row for 16 cycles; a sequentially consistent fence is counted. As the model's own choice it rests on the log entries 33. -/
def Obligations.FenceResult : Prop :=
  ∀ (f : Fields) (s : State) (cid : Nat), Ready s cid 0x99 f (.fence f) →
    let x := s.ctx cid
    let k := f.fn.toNat % 4
    if k ≠ 0 ∧ x.stores ≠ [] ∨ k ≠ 1 ∧ (∃ r ∈ x.inflight, r.loadAddr.isSome = true) then
      ∃ t, Machine.exec (.fence f) s = .next t ∧ t.verdict = 3 ∧ t.fileOf cid = s.fileOf cid ∧ Spares s t cid
    else if k = 1 then Makes (.fence f) s cid x (s.nextPc cid (.fence f))
    else ∃ t, Machine.exec (.fence f) s = .next t ∧ Leaves s t cid { x with notBefore := s.now cid + 16 } (s.nextPc cid (.fence f))
      ∧ t.fenceOrder = s.fenceOrder + (if k = 3 then 1 else 0) ∧ ∀ e ∈ (t.grid (gridOf cid)).rcache, e.2.valid &&& ~~~e.2.owned = 0

/-- R225, R226: an atomic reads the old value at home and writes Op(old, b) there at issue, lane after lane, so that of lanes that meet on one word each reads what those before it left; a compare that fails writes nothing; the old values go to the destination when they
land; no other byte of memory and no other register changes. By its order in fn[4:3] a release comes first, which waits for the row's stores before any check is made, and an acquire is due
after it. R199: an access that fails its checks traps with its cause, lanes and address, and then no register and no byte of memory changes. As the model's own choice it rests on the log entries 6, 8, 33. -/
def Obligations.AtomicResult : Prop :=
  ∀ (f : Fields) (s : State) (cid : Nat), s.Inv →
    let x := s.ctx cid
    let g := gridOf cid
    (∀ e ∈ [(0xA1, Instr.satom f, atomOpOf (f.fn.toNat % 8)), (0xA3, .sacas f, AtomOp.cas)], Ready s cid e.1 f e.2.1 →
      let n := tyWidth f.mod / 8
      (f.fn.getLsbD 4 = true → x.stores ≠ [] → ∃ t, Machine.exec e.2.1 s = .next t ∧ t.verdict = 3 ∧ t.fileOf cid = s.fileOf cid ∧ Spares s t cid)
      ∧ (∀ c, (f.fn.getLsbD 4 = true → x.stores = []) → checkAccesses s cid n n true (rowAccess x f f.a .zero 0) = .error c → TrapsWhole e.2.1 s cid c.1 c.2.1 c.2.2)
      ∧ ∀ p, (f.fn.getLsbD 4 = true → x.stores = []) → checkAccesses s cid n n true (rowAccess x f f.a .zero 0) = .ok [p] → atomReady s cid n [p] = true →
        let old := leNat (s.readSpace p.sp p.off n)
        let new := if atomWrites e.2.2 f.mod old (arg x f f.d).toNat then atomApply e.2.2 f.mod old (arg x f f.b).toNat (arg x f f.d).toNat else old
        ∃ t, Machine.exec e.2.1 s = .next t ∧ (t.ctx cid).file = { x.file with pc := s.nextPc cid e.2.1 } ∧ (∀ c, c ≠ cid → t.fileOf c = s.fileOf c)
          ∧ (t.ctx cid).inflight = x.inflight ++ [loading s cid (atomDelay g [p]) n (sWrites f (extend f.mod (BitVec.ofNat _ old))) [p] [p]] ∧ (t.ctx cid).acqDue = f.fn.getLsbD 3
          ∧ (∀ i, i < n → byteAt t p.sp (p.off + i) = BitVec.ofNat 8 (new / 2 ^ (8 * i))) ∧ SameBut s t (sideOf [p] n) (scratchOf [p] n))
    ∧ (∀ e ∈ [(0xA0, Instr.atom f, atomOpOf (f.fn.toNat % 8)), (0xA2, .acas f, AtomOp.cas)], Ready s cid e.1 f e.2.1 →
      (f.fn.getLsbD 4 = true → x.stores ≠ [] → ∃ t, Machine.exec e.2.1 s = .next t ∧ t.verdict = 3 ∧ t.fileOf cid = s.fileOf cid ∧ Spares s t cid)
      ∧ (∀ c, (f.fn.getLsbD 4 = true → x.stores = []) → checkAccesses s cid 4 4 false (laneAccesses x f f.a .zero 0) = .error c → TrapsWhole e.2.1 s cid c.1 c.2.1 c.2.2)
      ∧ ∀ ps, (f.fn.getLsbD 4 = true → x.stores = []) → checkAccesses s cid 4 4 false (laneAccesses x f f.a .zero 0) = .ok ps → atomReady s cid 4 ps = true →
        let b := (srcs s cid e.1 f).b
        let old_ := oldLanes x f.d
        let after (pre : List Place) (p : Place) : Nat := wordAfter s (fun old q => if atomWrites e.2.2 f.mod old (old_.get q.lane).toNat
          then atomApply e.2.2 f.mod old (b.get q.lane).toNat (old_.get q.lane).toNat else old) pre p
        ∃ t val, Machine.exec e.2.1 s = .next t ∧ (t.ctx cid).file = { x.file with pc := s.nextPc cid e.2.1 } ∧ (∀ c, c ≠ cid → t.fileOf c = s.fileOf c)
          ∧ (t.ctx cid).inflight = x.inflight ++ [loading s cid (atomDelay g ps + conflicts ps) 4 (vecWrites x f val (x.active f)) ps ps] ∧ (t.ctx cid).acqDue = f.fn.getLsbD 3
          ∧ SameBut s t (sideOf ps 4) (scratchOf ps 4)
          ∧ (ps.Pairwise (fun p q => placeKey p.sp p.off = placeKey q.sp q.off ∨ ∀ i j, i < 4 → j < 4 → placeKey p.sp (p.off + i) ≠ placeKey q.sp (q.off + j)) →
              ∀ pre p post, ps = pre ++ p :: post → val.get p.lane = BitVec.ofNat 32 (after pre p) ∧ ∀ i, i < 4 → byteAt t p.sp (p.off + i) = BitVec.ofNat 8 (after ps p / 2 ^ (8 * i))))

/-- R198, R206: the bytes of a row's store come home when the delay of their space is over, no other context holds their bank (R249) and no earlier store of the row has still to write a byte of their words
(R218): each of them then reads as the last of its lanes wrote it, every other byte of memory and every register as before; the rest of the store stays. The oldest store that is home is
acknowledged, an atomic once its old value is due too: it leaves the queue, and the engine operations of the row that wait for it count it off (R233). As the model's own choice it rests on the log entries 6, 79. -/
def Obligations.StoreComesHome : Prop :=
  ∀ (s : State) (cid : Nat), s.Inv → (s.ctx? cid).isSome = true →
    let x := s.ctx cid
    (∀ (pre : List Store) (st : Store) (rest : List Store), x.stores = pre ++ st :: rest →
      (∀ k (h : k < pre.length), ∀ e ∈ pre[k].bytes, s.homeNow cid (pre.take k) pre[k] e = false) →
      let go := st.bytes.filter (s.homeNow cid pre st)
      let stay := st.bytes.filter fun e => !s.homeNow cid pre st e
      go ≠ [] →
      ∃ t, Machine.exec (.homeStore cid) s = .next t ∧ (∀ c, t.fileOf c = s.fileOf c) ∧ (t.ctx cid).stores = pre ++ { st with bytes := stay, home := stay.isEmpty } :: rest
        ∧ (∀ j (h : j < go.length), (∀ k (h2 : k < go.length), j < k → placeKey go[k].1 go[k].2.1 ≠ placeKey go[j].1 go[j].2.1) →
            byteAt t go[j].1 go[j].2.1 = go[j].2.2)
        ∧ SameBut s t (fun a => ∃ e ∈ go, placeKey e.1 e.2.1 = (false, a)) (fun a => ∃ e ∈ go, placeKey e.1 e.2.1 = (true, a)))
    ∧ (∀ i (h : i < x.stores.length), x.stores[i].acked (s.now cid) = true → (∀ k (h2 : k < x.stores.length), k < i → x.stores[k].acked (s.now cid) = false) →
      ∃ t, Machine.exec (.storeAck cid) s = .next t ∧ (t.ctx cid).stores = x.stores.eraseIdx i ∧ (∀ c, t.fileOf c = s.fileOf c) ∧ SameMem s t
        ∧ (t.grid (gridOf cid)).leat = (s.grid (gridOf cid)).leat.map fun o => if o.cid = cid then { o with waitStores := if i < o.waitStores then o.waitStores - 1 else o.waitStores } else o)
namespace Sys2Proof.Claims
open Sys2Proof Sys2Proof.Machine
/-- A handle written to a scalar register and marked pending (R228, R281). -/
def withHandle (x : Ctx) (d : Operand) (h : Word32) : Ctx :=
  match d with | .s n => { x.setS n.val (h.setWidth 64) with marks := Tables.set n.val (.pending h) (Tables.erase x.marks n.val) } | _ => x
/-- The first 64 bits of an instruction's encoding: its long form's first word (R341). -/
def firstWord (i : Instr) : Word64 := BitVec.ofNat 64 ((encode i).getD 0)
/-- The Leat takes an operation (R227, R228, R231): it joins its grid's queue with a new engine future of the block (R279), whose handle the destination receives, pending; nothing else of the context changes but
its PC, and it issues nothing for the cycle of the checks. -/
def Accepts (i : Instr) (s t : State) (cid : Nat) (f : Fields) (o : LeatOp) : Prop :=
  ∃ u h, s.engineFuture cid = some (u, h) ∧ (∀ k, t.future? k = u.future? k) ∧ Machine.exec i s = .next t ∧ Leaves s t cid { withHandle (s.ctx cid) f.d h with notBefore := s.now cid + 2 } (s.nextPc cid i)
    ∧ (t.grid (gridOf cid)).leat = (s.grid (gridOf cid)).leat ++ [{ o with id := (s.grid (gridOf cid)).nextOp, fut := h, buckets := 1, word := firstWord i }]
/-- The trap of a row-level instruction. -/
def TrapsRow (i : Instr) (s : State) (cid cause : Nat) (addr fut : Word64) : Prop :=
  Machine.exec i s = .next (s.trapAt cid (trapOf s cid i cause 0 addr fut))
/-- A bank operation under way (R250): its banks, when it ends, the buckets it returns then. -/
def banking (s : State) (cid op : Nat) (f : Fields) (lat : Nat) (x : Ctx) : Ctx :=
  { x with bankOps := x.bankOps ++ [(x.nextId, x.banks, bankStart s cid x.banks + lat, priceOf s cid op f)], nextId := x.nextId + 1 }
/-- Bank b of the context's grid is held by it and the byte lies in entry k of the bank: bq0 to bq7, then ba0 to ba3 (R248). -/
def inBank (cid : Nat) (held : Word32) (k a : Nat) : Prop := ∃ b, b < 32 ∧ held.getLsbD b = true ∧ bankKey (gridOf cid) b + 64 * k ≤ a ∧ a < bankKey (gridOf cid) b + 64 * k + 64
/-- The loop an mloop or an mstep puts into the dot sequencer (R266, R271). -/
def loopFor (s : State) (cid op : Nat) (f : Fields) (h : Option Word32) : Loop :=
  let x := s.ctx cid
  let w := arg x f f.a
  { fmt := f.mod, word := w, first := byteOf f.d % 16 + (if op = 0xC0 then bitsOf w 7 4 else 0), groups := if op = 0xC0 then bitsOf w 19 16 + 1 else 1
    ksteps := if op = 0xC0 then bitsOf w 31 20 else 1, grp := if op = 0xC0 then 0 else bitsOf w 19 16, top := w.getLsbD 2 || x.rowid == 0
    issued := s.now cid, price := priceOf s cid op f, held := priceOf s cid op f, fut := h }
/-- y is x with the lanes of mask of accumulators d to d + n − 1 set to 0. -/
def Zeroed (x y : Ctx) (d n : Nat) (mask : Word32) : Prop :=
  { y with acc := x.acc } = x ∧ ∀ a, a < 16 → ∀ l, l < 32 → (y.accum a).get l = if d ≤ a ∧ a < d + n ∧ mask.getLsbD l = true then 0 else (x.accum a).get l
end Sys2Proof.Claims

/-- R248 to R255: bkmode trades the banks held for those of its mask, whole; while another context holds one of them, other than one of a higher row whose wait ended in this very cycle and which waits on, it has let its own go and waits, until the grid gives it the whole mask; bkbcast writes the 64 bytes of half of a vector into an entry of every
bank held, bkclr zeroes accumulators there, bkmac runs its multiply-accumulates there, and no byte elsewhere changes; bkget puts two banks' accumulators in flight; bkscan writes the positions of its counting
elements as a list in side memory and puts their number in flight; bkmac's accumulators take their lines one after the other (BankStep of R149), and a line outside the block's side memory traps with cause 0x04 at the lowest such address; bkscan traps with cause 0x04 at S[B] where a bit above its count is set, else at the first byte of its source or of its list
outside that memory, and then with cause 0x05 at a misaligned source or list (the source before the list is the model's choice, log entry 121); a result read from bad storage is poisoned (R325). Those on a bank's state are stated where the row's stores to the bank are home (R250). As the model's own choice it rests on the log entries 8, 21, 26, 58, 60, 121. -/
def Obligations.BankResult : Prop :=
  ∀ (f : Fields) (s : State) (cid : Nat), s.Inv →
    let x := s.ctx cid
    let g := gridOf cid
    let a := arg x f f.a
    let sp := (s.blockOf x).spanOn g
    (Ready s cid 0xA4 f (.bkmode f) → x.stage = .fresh →
      if (s.ctxs.any fun e => e.1 != cid && gridOf e.1 == g && e.2.banks &&& a.setWidth 32 != 0 && !(e.2.stage == .gotMask (s.now cid) && decide (cid < e.1)))
          || ((s.grid g).freed.any fun e => e.1 == s.now cid && e.2.1 != cid && e.2.2 &&& a.setWidth 32 != 0) then
        ∃ t, Machine.exec (.bkmode f) s = .next t ∧ t.verdict = 4 ∧ (t.ctx cid).banks = 0 ∧ (t.ctx cid).stage = .wantMask (a.setWidth 32) ∧ t.fileOf cid = s.fileOf cid ∧ Spares s t cid
      else Makes (.bkmode f) s cid { x with banks := a.setWidth 32 } (s.nextPc cid (.bkmode f)))
    ∧ (Ready s cid 0xA4 f (.bkmode f) → (∃ c, x.stage = .gotMask c) → Makes (.bkmode f) s cid x (s.nextPc cid (.bkmode f)))
    ∧ (Ready s cid 0xA5 f (.bkbcast f) → bankStoresHome s cid x.banks = true → ∃ t, Machine.exec (.bkbcast f) s = .next t ∧ t.fileOf cid = some { x.file with pc := s.nextPc cid (.bkbcast f) }
        ∧ (∀ c, c ≠ cid → t.fileOf c = s.fileOf c) ∧ (t.ctx cid).bankOps = (banking s cid 0xA5 f 2 x).bankOps
        ∧ (∀ b l, x.banks.getLsbD b = true → l < 16 → t.bankMem.num (bankKey g b + 64 * (f.fn.toNat % 8) + 4 * l) 4 = ((srcs s cid 0xA5 f).a.get (l + if f.fn.getLsbD 3 then 16 else 0)).toNat)
        ∧ SameBut s { t with bankMem := s.bankMem } (fun _ => False) (fun _ => False) ∧ ∀ k, ¬ inBank cid x.banks (f.fn.toNat % 8) k → t.bankMem.read k = s.bankMem.read k)
    ∧ (Ready s cid 0xA8 f (.bkclr f) → bankStoresHome s cid x.banks = true → ∃ t, Machine.exec (.bkclr f) s = .next t ∧ t.ctx? cid = some ((banking s cid 0xA8 f 1 x).retire (s.nextPc cid (.bkclr f)) (s.now cid))
        ∧ (∀ c, c ≠ cid → t.fileOf c = s.fileOf c) ∧ (∀ j k, j < 4 → f.fn.getLsbD j = true → inBank cid x.banks (8 + j) k → t.bankMem.read k = 0)
        ∧ SameBut s { t with bankMem := s.bankMem } (fun _ => False) (fun _ => False)
        ∧ ∀ k, (∀ j, j < 4 → f.fn.getLsbD j = true → ¬ inBank cid x.banks (8 + j) k) → t.bankMem.read k = s.bankMem.read k)
    ∧ (Ready s cid 0xA6 f (.bkmac f) →
        let count := bitsOf a 31 20
        let addr (n b : Nat) : Nat := (bitsOf a 9 0 + n * bitsOf a 19 10) % 1024 * 2048 + b * 64
        let off (n b : Nat) : Prop := n < count ∧ b < 32 ∧ x.banks.getLsbD b = true ∧ ¬ (sp.base ≤ addr n b ∧ addr n b + 64 ≤ sp.lim)
        let half (n b i : Nat) : Nat := s.side.num (2 ^ 21 * g + addr n b + 2 * i) 2
        let factor (n b i : Nat) : Nat := s.bankMem.num (bankKey g b + 64 * ((f.fn.toNat / 4 + n) % 8) + 2 * i) 2
        (∀ n b, off n b → (∀ m c, off m c → addr n b ≤ addr m c) → TrapsRow (.bkmac f) s cid 4 (BitVec.ofNat 64 (addr n b)) 0) ∧
        ((∀ n b, ¬ off n b) → bankStoresHome s cid x.banks = true →
        ∃ t, Machine.exec (.bkmac f) s = .next t ∧ t.ctx? cid = some ({ banking s cid 0xA6 f (count + 6) x with notBefore := s.now cid + 2 }.retire (s.nextPc cid (.bkmac f)) (s.now cid))
          ∧ (∀ c, c ≠ cid → t.fileOf c = s.fileOf c) ∧ SameBut s { t with bankMem := s.bankMem } (fun _ => False) (fun _ => False)
          ∧ (∀ k, ¬ inBank cid x.banks (8 + f.fn.toNat % 4) k → t.bankMem.read k = s.bankMem.read k)
          ∧ ∀ b k, b < 32 → x.banks.getLsbD b = true → k < 16 →
              let acc := bankKey g b + 64 * (8 + f.fn.toNat % 4) + 4 * k
              t.bankMem.num acc 4 = (List.range count).foldl (fun v n =>
                bankStep (fpOf f.mod) v (half n b (2 * k)) (factor n b (2 * k)) (half n b (2 * k + 1)) (factor n b (2 * k + 1)) % 2 ^ 32) (s.bankMem.num acc 4)))
    ∧ (Ready s cid 0xA7 f (.bkget f) →
        let u := bitsOf a 4 0
        let w := bitsOf a 12 8
        if bitsOf a 7 5 = 0 ∧ bitsOf a 63 13 = 0 ∧ x.banks.getLsbD u = true ∧ x.banks.getLsbD w = true then
          let val : Lanes := tab 32 fun l => BitVec.ofNat 32 (s.bankMem.num (bankKey g (if l < 16 then u else w) + 64 * (8 + f.fn.toNat % 4) + 4 * (l % 16)) 4)
          bankStoresHome s cid (1#32 <<< u ||| 1#32 <<< w) = true → ∃ t, Machine.exec (.bkget f) s = .next t ∧ t.fileOf cid = some { x.file with pc := s.nextPc cid (.bkget f) } ∧ Spares s t cid
            ∧ (t.ctx cid).inflight = x.inflight ++ [{ id := x.nextId, due := bankStart s cid (1#32 <<< u ||| 1#32 <<< w) + 4, writes := vecWrites x f val (x.active f), buckets := priceOf s cid 0xA7 f
                                                      poison := if s.sramBad g 2 (16 * u + 8 + f.fn.toNat % 4) || s.sramBad g 2 (16 * w + 8 + f.fn.toNat % 4) then some 0 else none }]
        else TrapsRow (.bkget f) s cid 4 a 0)
    ∧ (Ready s cid 0xA9 f (.bkscan f) →
        let es := tyWidth f.mod / 8
        let src := a.toNat
        let list := bitsOf (arg x f f.b) 31 0
        let n := bitsOf (arg x f f.b) 47 32
        let hits := (List.range n).filter fun e => scanCounts f.mod (leNat (s.readSpace (.side g) (src + e * es) es))
        let outside (lo len : Nat) : Option Nat := ((List.range len).map (lo + ·)).find? fun k => decide (¬ (sp.base ≤ k ∧ k < sp.lim))
        let none63 : Prop := bitsOf (arg x f f.b) 63 48 = 0
        (¬ none63 → TrapsWhole (.bkscan f) s cid 4 0 (arg x f f.b))
        ∧ (none63 → ∀ k, (outside src (n * es)).or (outside list (2 * n)) = some k → TrapsWhole (.bkscan f) s cid 4 0 (BitVec.ofNat 64 k))
        ∧ (none63 → outside src (n * es) = none → outside list (2 * n) = none →
            (src % es ≠ 0 → TrapsWhole (.bkscan f) s cid 5 0 a) ∧ (src % es = 0 → list % 2 ≠ 0 → TrapsWhole (.bkscan f) s cid 5 0 (BitVec.ofNat 64 list)))
        ∧ (bitsOf (arg x f f.b) 63 48 = 0 → (n = 0 ∨ sp.base ≤ src ∧ src + n * es ≤ sp.lim ∧ sp.base ≤ list ∧ list + 2 * n ≤ sp.lim) → src % es = 0 → list % 2 = 0 →
        let place (k : Nat) : Place := { lane := 0, sp := .side g, off := k }
        let ps := ((List.range (n * es)).map fun i => place (src + i)) ++ (List.range (2 * n)).map fun i => place (list + i)
        bankWait s cid 1 ps = false → bankStoresHome s cid (banksAt ps) = true →
        ∃ t, Machine.exec (.bkscan f) s = .next t ∧ t.fileOf cid = some { x.file with pc := s.nextPc cid (.bkscan f) } ∧ (∀ c, c ≠ cid → t.fileOf c = s.fileOf c)
          ∧ (t.ctx cid).inflight = x.inflight ++ [{ id := x.nextId, due := s.now cid + 8 + (n * tyWidth f.mod + 511) / 512, writes := sWrites f (BitVec.ofNat 64 hits.length), buckets := priceOf s cid 0xA9 f
                                                    poison := if (linesOf src (n * es)).any fun k => decide (0 < n) && s.lineBad (g, k) then some (BitVec.ofNat 64 src) else none }]
          ∧ (∀ j (h : j < hits.length), leNat (t.readSpace (.side g) (list + 2 * j) 2) = hits[j] % 65536)
          ∧ SameBut s t (fun k => 2 ^ 21 * g + list ≤ k ∧ k < 2 ^ 21 * g + list + 2 * hits.length) (fun _ => False)))

/-- R228 to R231, R236 to R241, R247: a copy whose shape passes its checks, and a global atomic whose address does, join the grid's Leat with a future in S[D]; a slot that is to be filled goes to filling in
its format and layout, one that is to be drained to draining; a shape that fails a check traps with its cause and address. As the model's own choice it rests on the log entries 9, 26, 43, 101, 112. -/
def Obligations.CopyAccepted : Prop :=
  ∀ (f : Fields) (s : State) (cid : Nat),
    let x := s.ctx cid
    let g := gridOf cid
    let slot := (arg x f f.b).toNat
    let tl := s.tile g slot
    (∀ e ∈ [(0xB0, Instr.cpy f, if f.fn.getLsbD 0 then LeatKind.cpySt else .cpyLd, false), (0xB1, .cpyg f, .gather, true), (0xB2, .cpys f, .scatter, true)],
      Ready s cid e.1 f e.2.1 → (e.1 = 0xB1 → f.mod = .i8) →
        let o := { shapeOp s cid f e.2.2.1 with ty := .i8, layB := false }
        match shapeFault s cid f o false e.2.2.2 0 with
        | some (c, a) => TrapsRow e.2.1 s cid c a 0
        | none => ∃ t, Accepts e.2.1 s t cid f o ∧ ∀ n, t.tile g n = s.tile g n)
    ∧ (∀ e ∈ [(0xB1, Instr.cpyg f, true), (0xB3, .cpyt f, false)], Ready s cid e.1 f e.2.1 → (e.1 = 0xB1 → f.mod ≠ .i8) →
        let o := shapeOp s cid f (.fill slot tl.gen e.2.2)
        match shapeFault s cid f o true e.2.2 (slotUnits f.mod) with
        | some (c, a) => TrapsRow e.2.1 s cid c a 0
        | none => ∃ t, Accepts e.2.1 s t cid f o ∧ t.tile g slot = { tl with state := 1, fmt := tileFmt f.mod, layB := f.fn.getLsbD 0 } ∧ ∀ n, n ≠ slot → t.tile g n = s.tile g n)
    ∧ (Ready s cid 0xB4 f (.cpyd f) →
        let o := { shapeOp s cid f (.drain slot tl.gen) with ty := fmtTy tl.fmt, layB := tl.layB }
        match shapeFault s cid f o true false (slotUnits (fmtTy tl.fmt)) with
        | some (c, a) => TrapsRow (.cpyd f) s cid c a 0
        | none => ∃ t, Accepts (.cpyd f) s t cid f o ∧ t.tile g slot = { tl with state := 3 } ∧ ∀ n, n ≠ slot → t.tile g n = s.tile g n)
    ∧ (Ready s cid 0xB5 f (.gatom f) →
        let a := arg x f f.a
        let va := bitsOf a 51 0
        if bitsOf a 59 52 ≠ 0 then TrapsRow (.gatom f) s cid 4 a 0
        else if va % (tyWidth f.mod / 8) ≠ 0 then TrapsRow (.gatom f) s cid 5 (BitVec.ofNat 64 va) 0
        else ∃ t, Accepts (.gatom f) s t cid f
          { id := 0, cid := cid, blk := x.blk, kind := .atomic (atomOpOf (f.fn.toNat % 8)) f.mod (arg x f f.b) (arg x f f.c), ty := f.mod, layB := false, gva := va, lva := 0
            e0 := 1, n1 := 1, n2 := 1, gs1 := 0, gs2 := 0, ls1 := 0, ls2 := 0, reg := bitsOf a 63 60, iw := false, list := 0, fut := 0, buckets := 0, waitStores := x.stores.length })

/-- R244 to R246: tclaim gives the block the lowest slot that no block owns and writes its number, or all ones; trel empties a ready slot, whose generation moves on; tstat reads a slot's entry as it stood at the start of the cycle (R243). -/
def Obligations.TileSlots : Prop :=
  ∀ (f : Fields) (s : State) (cid : Nat),
    let x := s.ctx cid
    let g := gridOf cid
    let k := (arg x f f.a).toNat
    (Ready s cid 0xB6 f (.tclaim f) →
      (∀ n, n < 32 → (∀ j, j < n → (s.tile g j).owner ≠ none) → (s.tile g n).owner = none →
        ∃ t, Machine.exec (.tclaim f) s = .next t ∧ Leaves s t cid (putS x f (BitVec.ofNat 64 n)) (s.nextPc cid (.tclaim f))
          ∧ (t.tile g n) = { s.tile g n with state := 0, owner := some x.blk, gen := ((s.tile g n).gen + 1) % 65536 } ∧ ∀ j, j ≠ n → t.tile g j = s.tile g j)
      ∧ ((∀ j, j < 32 → (s.tile g j).owner ≠ none) → Makes (.tclaim f) s cid (putS x f (-1)) (s.nextPc cid (.tclaim f))))
    ∧ (Ready s cid 0xB7 f (.trel f) → ∃ t, Machine.exec (.trel f) s = .next t ∧ Leaves s t cid x (s.nextPc cid (.trel f))
        ∧ (t.tile g k) = { s.tile g k with state := 0, gen := ((s.tile g k).gen + 1) % 65536 } ∧ ∀ j, j ≠ k → t.tile g j = s.tile g j)
    ∧ (Ready s cid 0xB8 f (.tstat f) → Makes (.tstat f) s cid (putS x f (if 31 < k then 0 else
        let tl := s.tileSeen g k
        BitVec.ofNat 64 (tl.gen * 65536 + (if tl.layB then 128 else 0) + tl.fmt * 16 + (if tl.owner = some x.blk then 8 else 0) + tl.state))) (s.nextPc cid (.tstat f)))

/-- R266, R267, R271: mloop and mstep put their loop into the dot sequencer with the buckets they paid, clear the accumulators they name where the word says so, and mloop with a destination writes there the handle of
a new engine future of its block (R279), pending. -/
def Obligations.MatrixStarted : Prop :=
  ∀ (f : Fields) (s : State) (cid : Nat),
    let x := s.ctx cid
    let w := arg x f f.a
    (∀ e ∈ [(0xC0, Instr.mloop f), (0xC1, .mstep f)], Ready s cid e.1 f e.2 → (e.1 = 0xC0 → f.b = .zero) →
      let l := loopFor s cid e.1 f none
      ∃ y, Zeroed x y l.first (if w.getLsbD 1 then l.groups else 0) 0xFFFFFFFF#32 ∧ Makes e.2 s cid { y with loop := some l } (s.nextPc cid e.2))
    ∧ (Ready s cid 0xC0 f (.mloop f) → f.b ≠ .zero →
      ∃ u h y, s.engineFuture cid = some (u, h) ∧ Zeroed (withHandle x f.b h) y (loopFor s cid 0xC0 f none).first (if w.getLsbD 1 then (loopFor s cid 0xC0 f none).groups else 0) 0xFFFFFFFF#32
        ∧ Makes (.mloop f) s cid { y with loop := some (loopFor s cid 0xC0 f (some h)) } (s.nextPc cid (.mloop f)))

/-- R273: azero clears the active lanes of its accumulators, and nothing else. R274, R275, R276: amov moves the active lanes between accumulators and vector registers, one index landing in each cycle from the second; ast queues stores of the accumulators, one index in each cycle; bpass has no
effect without the Baton, and with it aims its next move, which comes at once when no loop runs. As the model's own choice it rests on the log entries 6, 26, 109. -/
def Obligations.AccumulatorMoves : Prop :=
  (∀ (f : Fields) (s : State) (cid : Nat), Ready s cid 0xC2 f (.azero f) →
      ∃ y, Zeroed (s.ctx cid) y (byteOf f.d) (f.fn.toNat % 16 + 1) ((s.ctx cid).active f) ∧ Makes (.azero f) s cid y (s.nextPc cid (.azero f)))
  ∧ (∀ (f : Fields) (s : State) (cid : Nat),
      let x := s.ctx cid
      let mask := x.active f
      let n := f.fn.toNat % 16 + 1
      (∀ a : Fin 64, f.a = .v a → Ready s cid 0xC3 f (.amov f) → Makes (.amov f) s cid { x with
          inflight := x.inflight ++ (List.range n).map fun i => { id := x.nextId + i, due := s.now cid + 2 + i
                                                                  writes := [if f.fn.getLsbD 4 then .acc (byteOf f.d + i) (x.vreg (a.val + i)) mask else .v (a.val + i) (x.accum (byteOf f.d + i)) mask]
                                                                  buckets := if i + 1 = n then priceOf s cid 0xC3 f else 0 }
          nextId := x.nextId + n } (s.nextPc cid (.amov f)))
      ∧ (Ready s cid 0xC4 f (.ast f) →
          let es := tyWidth f.mod / 8
          let as : List Access := (List.range n).flatMap fun i => (lanesOf mask).map fun l =>
            ⟨l, scalarOf x f true f.a + scalarOf x f true f.c + BitVec.ofNat 64 i * scalarOf x f true f.b + BitVec.ofNat 64 (l * es)⟩
          match checkAccesses s cid es es false as with
          | .error c => Machine.exec (.ast f) s = .next (s.trapAt cid (trapOf s cid (.ast f) c.1 c.2.1 c.2.2 0))
          | .ok ps => bankWait s cid es ps = false →
            let val (i l : Nat) : Nat × BitVec 5 := if f.mod = .f32 then (((x.accum (byteOf f.d + i)).get l).toNat, 0) else convert f.mod .f32 0 (f.fn.getLsbD 4) ((x.accum (byteOf f.d + i)).get l).toNat
            let per := (lanesOf mask).length
            let bs (i : Nat) := ((ps.drop (i * per)).take per).flatMap fun p => bytesAt p es (val i p.lane).1
            Makes (.ast f) s cid { x with
              notBefore := s.now cid + 2
              stores := if mask = 0 then x.stores else x.stores ++ (List.range n).map fun i => { bytes := bs i, left := s.now cid + 2 + i, due := s.now cid + 2 + i + storeDelays (gridOf cid) (bs i) }
              inflight := x.inflight ++ [{ id := x.nextId, due := s.now cid + 1 + n, buckets := priceOf s cid 0xC4 f, canFlag := f.mod != .f32
                                           flags := (List.range n).foldl (fun fl i => (lanesOf mask).foldl (fun fl l => fl ||| (val i l).2) fl) 0 }]
              nextId := x.nextId + 1 } (s.nextPc cid (.ast f)))
      ∧ (Ready s cid 0xC5 f (.bpass f) →
          let v := arg x f f.a
          let r := s.prow (rowOf cid)
          (r.baton ≠ some (planeOf cid) → Makes (.bpass f) s cid x (s.nextPc cid (.bpass f)))
          ∧ (r.baton = some (planeOf cid) → x.loop ≠ none → Makes (.bpass f) s cid { x with bpassTo := if v.getLsbD 2 then none else some (v.toNat % 4) } (s.nextPc cid (.bpass f)))
          ∧ (r.baton = some (planeOf cid) → x.loop = none → ∃ t, Machine.exec (.bpass f) s = .next t ∧ t.verdict = 1 ∧ t.fileOf cid = some { x.file with pc := s.nextPc cid (.bpass f) } ∧ Spares s t cid
              ∧ (v.getLsbD 2 = false → v.toNat % 4 ≠ planeOf cid → s.pendingBaton (rowOf cid) (v.toNat % 4) = true → (s.ctx (4 * rowOf cid + v.toNat % 4)).blk = x.blk →
                  (∀ sl, sl < 4 → (s.ctx (4 * rowOf cid + sl)).batonPassed < 4) → (t.prow (rowOf cid)).baton = some (v.toNat % 4)))))
namespace Sys2Proof.Claims
open Sys2Proof Sys2Proof.Machine
/-- A handle as a scalar (R277). -/
def toWord (h : Word32) : Word64 := h.setWidth 64
/-- The handle that S[A] holds (R277). -/
def handle (x : Ctx) (f : Fields) : Word32 := (arg x f f.a).setWidth 32
/-- A status word reports a settled future: resolved, failed or cancelled (R286). -/
def joined (w : Word64) : Prop := w.toNat % 256 = 1 ∨ w.toNat % 256 = 2 ∨ w.toNat % 256 = 3
/-- A pending future whose owner, if any, has not retired. -/
def pendingIn (s : State) (h : Word32) (e : Future) : Prop :=
  s.future? h = some e ∧ e.state = 1 ∧ ∀ b, e.owner = some b → ∃ x, s.block? b = some x ∧ x.phase ≠ .retired
/-- The value a failed engine operation settles with (R233). -/
def failWord (cause status va : Nat) : Word64 := BitVec.ofNat 64 (cause * 2 ^ 56 + status * 2 ^ 52 + va % 2 ^ 52)
/-- The engine future that an instruction takes for its block unless nowb (R46, R279, R320), and the state in which it stands. -/
def Owes (s : State) (cid : Nat) (f : Fields) (u : State) (h : Option Word32) : Prop :=
  if f.nowb = true then u = s ∧ h = none else ∃ hd, s.engineFuture cid = some (u, hd) ∧ h = some hd
/-- The context with that future's handle in the destination, marked pending (R281). -/
def handed (x : Ctx) (f : Fields) (h : Option Word32) : Ctx := match h with | some hd => withHandle x f.d hd | none => x
/-- A record that the context's own block still holds in the journal has this future (R46). -/
def ownHeld (s : State) (cid : Nat) (h : Word32) : Bool := s.journal.any fun j => j.blk == (s.ctx cid).blk && j.fut == some h
/-- The status word of R286: that of its own block's held record is that of a pending future (R46). -/
def statusWord (s : State) (cid : Nat) (h : Word32) : Word64 :=
  if ownHeld s cid h then 0
  else match s.future? h with | none => 4 | some e => BitVec.ofNat 64 (e.state - 1 + if e.state = 3 ∨ e.state = 4 then 256 * e.cause else 0)
/-- The context x of which an instruction has made y, once it has joined: the acquire is made at once where the row's loads have landed, so that it issues nothing for 16 cycles, and is
otherwise due before its next instruction (R224, R303). -/
def joining (s : State) (cid : Nat) (y : Ctx) : Ctx :=
  if ∃ r ∈ (s.ctx cid).inflight, r.loadAddr.isSome = true then { y with acqDue := true } else { y with notBefore := s.now cid + 16 }
/-- The instruction waits: nothing of the context's registers or of memory changes. -/
def Waits (i : Instr) (s : State) (cid : Nat) : Prop := ∃ t, Machine.exec i s = .next t ∧ t.verdict = 3 ∧ t.fileOf cid = s.fileOf cid ∧ Spares s t cid
/-- It parks on an event, if the cluster's wait table has an entry left, and otherwise looks again in 256 cycles (R283). It takes the row's issue slot where it begins to wait or looks
again. -/
def Parks (i : Instr) (s : State) (cid : Nat) (begins : Prop) [Decidable begins] (w : Wait) : Prop :=
  ∃ t, Machine.exec i s = .next t ∧ t.verdict = (if begins ∨ (s.ctx cid).repollAt = some (s.now cid) then 4 else 3) ∧ t.fileOf cid = s.fileOf cid ∧ Spares s t cid
    ∧ if s.waiters (clusterOf (gridOf cid)) < 1024 then (t.ctx cid).parked = some w else (t.ctx cid).repollAt = some (s.now cid + 256)
/-- The band that a barrier instruction names: fn[3] selects the row's own band, else the block (R291). -/
def barrierBand (x : Ctx) (f : Fields) : Option Nat := if f.fn.getLsbD 3 then some x.bandid else none
/-- The barrier that it names, as the context's block holds it. -/
def theBarrier (s : State) (x : Ctx) (f : Fields) : Barrier := (s.blockOf x).barrier (barrierKey (barrierBand x f) (f.fn.toNat % 8))
/-- The barrier's phase has moved past the token's (R291). -/
def passed (s : State) (x : Ctx) (f : Fields) (tok : Word32) : Prop :=
  1 ≤ ((theBarrier s x f).phase - tok).toNat ∧ ((theBarrier s x f).phase - tok).toNat < 2 ^ 31
/-- The context is the last participant that has not arrived (R290). -/
def lastToArrive (s : State) (x : Ctx) (f : Fields) : Prop :=
  s.participants (s.blockOf x) (barrierBand x f) ≠ [] ∧ ∀ k ∈ s.participants (s.blockOf x) (barrierBand x f), k = x.k ∨ k ∈ (theBarrier s x f).arrived
/-- mon's request is on its way to a line's home filter, where it arrives after some cycles; the row's earlier watch and its wake stand until no check of mon's is left (R293, R324). -/
def Arms (i : Instr) (s : State) (cid delay : Nat) (space : Option Space) (line : Nat) : Prop :=
  ∃ t, Machine.exec i s = .next t ∧ (t.ctx cid).stage = .arming (s.now cid + delay) space line ∧ (t.ctx cid).watch = (s.ctx cid).watch ∧ (t.ctx cid).wake = (s.ctx cid).wake
    ∧ t.fileOf cid = s.fileOf cid ∧ Spares s t cid
/-- An rinit or an rtake has sent its request to the range of its block (R297). -/
def AsksRange (i : Instr) (s : State) (cid : Nat) (b : Block) (init : Option (Nat × Nat)) : Prop :=
  ∃ t b', Machine.exec i s = .next t ∧ (t.ctx cid).stage = .asked (s.now cid) ∧ t.fileOf cid = s.fileOf cid ∧ Spares s t cid ∧ t.block? (s.ctx cid).blk = some b'
    ∧ b'.requests = b.requests ++ [{ due := s.clkFrom (gridOf cid) (s.rangeHome cid) + s.rangeHops cid, k := (s.ctx cid).k, cid := cid, init := init }]
    ∧ (b'.lo, b'.hi, b'.takers, b'.asked) = (b.lo, b.hi, b.takers, b.asked)
end Sys2Proof.Claims

/-- R287: fnew takes the lowest free entry from the block's reserve or the shared pool and writes its handle, or 0; fmov copies a handle without its mark. R288, R289: fset settles a pending software future as resolved, or as failed with cause 0x06 or 0x07, and fcancel a pending software or engine future as cancelled; a settled one reads 1, one of another kind 2, a stale
handle traps with cause 0x08; fset is a release. A settled future's waiters and marks go with it in the same step (R278, R281), and a context that an fwait keeps on it finds the status it settled with, however long the entry then stays (R368). As the model's own choice it rests on the log entries 36. -/
def Obligations.FutureMadeAndSettled : Prop :=
  (∀ (f : Fields) (s : State) (cid : Nat),
      let x := s.ctx cid
      (Ready s cid 0xD0 f (.fnew f) →
        match s.allocFuture (clusterOf (gridOf cid)) 0 (some x.blk) (4 * (s.blockOf x).hdr.total) with
        | some (u, h) => ∃ t, Machine.exec (.fnew f) s = .next t ∧ Leaves s t cid (putS x f (h.setWidth 64)) (s.nextPc cid (.fnew f)) ∧ ∀ k, t.future? k = u.future? k
        | none => Makes (.fnew f) s cid (putS x f 0) (s.nextPc cid (.fnew f)))
      ∧ (Ready s cid 0xD5 f (.fmov f) → Makes (.fmov f) s cid (putS x f ((handle x f).setWidth 64)) (s.nextPc cid (.fmov f))))
  ∧ (∀ (f : Fields) (s : State) (cid : Nat),
      let x := s.ctx cid
      let h := handle x f
      let v := arg x f f.b
      let c := if bitsOf v 63 56 = 7 then 7 else 6
      (Ready s cid 0xD1 f (.fset f) →
        match s.future? h with
        | none => TrapsRow (.fset f) s cid 8 0 (h.setWidth 64)
        | some e =>
          if x.stores ≠ [] then Waits (.fset f) s cid
          else if e.kind ≠ 0 then Makes (.fset f) s cid (putS x f 2) (s.nextPc cid (.fset f))
          else if e.state ≠ 1 then Makes (.fset f) s cid (putS x f 1) (s.nextPc cid (.fset f))
          else
            let e' : Future := if f.fn.getLsbD 0 then { e with state := 3, value := v, cause := c } else { e with state := 2, value := v, cause := 0 }
            ∃ t, Machine.exec (.fset f) s = .next t ∧ (t.ctx cid).file = { (putS x f 0).file with pc := s.nextPc cid (.fset f) } ∧ Spares s t cid
              ∧ (∀ k, (t.ctx k).parked ≠ some (.future h))
              ∧ (∀ k, k ≠ cid → (s.ctx k).awaitsFuture h = true → (t.ctx k).woken = some (h, BitVec.ofNat 64 (if f.fn.getLsbD 0 then 2 + 256 * c else 1)))
              ∧ (t.future? h = some e' ∨ t.future? h = none ∧ ∃ b, e.owner = some b ∧ ∀ y, s.block? b = some y → y.phase = .retired))
      ∧ (Ready s cid 0xD6 f (.fcancel f) →
        match s.future? h with
        | none => TrapsRow (.fcancel f) s cid 8 0 (h.setWidth 64)
        | some e =>
          if e.kind = 2 then Makes (.fcancel f) s cid (putS x f 2) (s.nextPc cid (.fcancel f))
          else if e.state ≠ 1 then Makes (.fcancel f) s cid (putS x f 1) (s.nextPc cid (.fcancel f))
          else ∃ t, Machine.exec (.fcancel f) s = .next t ∧ (t.ctx cid).file = { (putS x f 0).file with pc := s.nextPc cid (.fcancel f) } ∧ Spares s t cid
              ∧ (∀ k, (t.ctx k).parked ≠ some (.future h)) ∧ (∀ k, k ≠ cid → (s.ctx k).awaitsFuture h = true → (t.ctx k).woken = some (h, 3 + 256 * 9))
              ∧ (t.future? h = some { e with state := 4, value := 0, cause := 9 } ∨ t.future? h = none ∧ ∃ b, e.owner = some b ∧ ∀ y, s.block? b = some y → y.phase = .retired)))

/-- R286, R287, R46: fget reads value and status into two registers, ftest the status; fwait the status too, but parks while the future is pending and no record its own block holds back; the future of such a record
reads as pending. A report of a settled future is an acquire, which is made once the row's loads have landed. As the model's own choice it rests on the log entries 29, 33, 36, 45. -/
def Obligations.FutureRead : Prop :=
  ∀ (f : Fields) (s : State) (cid : Nat),
    let x := s.ctx cid
    let h := handle x f
    let w := statusWord s cid h
    let reads (i : Instr) (q : Word64) (y : Ctx) : Prop :=
      (joined q → Makes i s cid (joining s cid y) (s.nextPc cid i)) ∧ (¬ joined q → Makes i s cid y (s.nextPc cid i))
    (∀ d : Fin 160, f.d = .s d → Ready s cid 0xD2 f (.fget f) →
      reads (.fget f) w ((x.setS d.val (match s.future? h with | some e => if w = 0 then 0 else e.value | none => 0)).setS (d.val + 1) w))
    ∧ (Ready s cid 0xD4 f (.ftest f) → reads (.ftest f) w (putS x f w))
    ∧ (Ready s cid 0xD3 f (.fwait f) → ∀ st, st = (match x.woken with | some (k, q) => if k = h then q else w | none => w) →
        (st = 0 → ownHeld s cid h = false → Parks (.fwait f) s cid False (.future h))
        ∧ (st ≠ 0 ∨ ownHeld s cid h = true → reads (.fwait f) st (putS x f st)))

/-- R290, R291: arrive, a release, sets the row's arrived bit and reads the phase as a token; the last participant to arrive advances the phase and clears the bits. await goes on, as an acquire, once the phase has moved past its
token, and parks until then; bar is both, so that the last to arrive goes on at once, as an acquire too. As the model's own choice it rests on the log entries 33, 81. -/
def Obligations.BarrierResult : Prop :=
  ∀ (f : Fields) (s : State) (cid : Nat) (b : Block),
    let x := s.ctx cid
    let bar := theBarrier s x f
    let key := barrierKey (barrierBand x f) (f.fn.toNat % 8)
    let wait (tok : Word32) : Wait := .barrier (barrierBand x f) (f.fn.toNat % 8) tok
    let tok := (arg x f f.a).setWidth 32
    s.block? x.blk = some b →
    (Ready s cid 0xD8 f (.arrive f) →
      if x.stores ≠ [] ∨ x.k ∈ bar.arrived then Waits (.arrive f) s cid
      else ∃ t b', Machine.exec (.arrive f) s = .next t ∧ t.fileOf cid = some { (putS x f (bar.phase.setWidth 64)).file with pc := s.nextPc cid (.arrive f) } ∧ Spares s t cid
        ∧ t.block? x.blk = some b' ∧ (lastToArrive s x f → b'.barrier key = { phase := bar.phase + 1, arrived := [] })
        ∧ (¬ lastToArrive s x f → b'.barrier key = { bar with arrived := bar.arrived ++ [x.k] }))
    ∧ (Ready s cid 0xD9 f (.awaitBar f) →
        (¬ passed s x f tok → Parks (.awaitBar f) s cid False (wait tok))
        ∧ (passed s x f tok → Makes (.awaitBar f) s cid (joining s cid x) (s.nextPc cid (.awaitBar f))))
    ∧ (Ready s cid 0xD7 f (.bar f) →
        (∀ tok, x.stage = .arrived tok →
          (passed s x f tok → Makes (.bar f) s cid (joining s cid x) (s.nextPc cid (.bar f)))
          ∧ (¬ passed s x f tok → Parks (.bar f) s cid False (wait tok)))
        ∧ (x.stage = .fresh → (x.stores ≠ [] ∨ x.k ∈ bar.arrived) → Waits (.bar f) s cid)
        ∧ (x.stage = .fresh → x.stores = [] → x.k ∉ bar.arrived → lastToArrive s x f →
            ∃ t b', Machine.exec (.bar f) s = .next t ∧ t.verdict = 1 ∧ Leaves s t cid (joining s cid x) (s.nextPc cid (.bar f))
              ∧ t.block? x.blk = some b' ∧ b'.barrier key = { phase := bar.phase + 1, arrived := [] })
        ∧ (x.stage = .fresh → x.stores = [] → x.k ∉ bar.arrived → ¬ lastToArrive s x f →
            ∃ t, Machine.exec (.bar f) s = .next t ∧ t.verdict = 4 ∧ t.fileOf cid = s.fileOf cid ∧ Spares s t cid ∧ (t.ctx cid).stage = .arrived bar.phase))

/-- R292 to R295: mon asks for a watch on a line it may reach, and traps on one it may not, or whose page is not to be had within 2^20 cycles; a rewrite of the interleave table holds back its
request, or the walk for it (R210), and the 2^20 cycles start after it; it ends when the watch is armed at the line's home, in place of the row's earlier one, whose wake is dropped. One whose line lies in bad memory raises cause 0x06, in a failed stack with its task failed (R44, R352); one lost with a link does so 2^20 cycles
after it was issued, and its task is to restart (R355). mwait returns the reason of a wake, 1 at its limit, or 4 with no watch, and drops both wake and watch, as an acquire; else it parks. As the model's own choice it rests on the log entries 28, 33, 90, 103, 113. -/
def Obligations.MonitorResult : Prop :=
  ∀ (f : Fields) (s : State) (cid : Nat),
    let x := s.ctx cid
    let a := arg x f f.a
    let task := (s.blockOf x).task
    let six := trapOf s cid (.mon f) 6 0 (BitVec.ofNat 64 (a.toNat % 2 ^ 52)) 0
    (Ready s cid 0xDA f (.mon f) → ∀ due sp line, x.stage = .arming due sp line →
      let arms (l : Nat) : Prop := Makes (.mon f) s cid { x with watch := some { space := sp, line := l, serial := s.watchSerial + 1, addr := a }, wake := none } (s.nextPc cid (.mon f))
      if s.now cid < due then Waits (.mon f) s cid
      else match sp, s.homeOf (64 * line) with
        | some _, _ => arms line
        | none, none => Machine.exec (.mon f) s = .next (s.trapAt cid six)
        | none, some h => (s.memBad h = false → arms (h / 64)) ∧ (s.memBad h = true → s.stackBad h = false → Machine.exec (.mon f) s = .next (s.trapAt cid six))
            ∧ (s.stackBad h = true → Machine.exec (.mon f) s = .next ((s.failTask task 6 0).trapAt cid six)))
    ∧ (Ready s cid 0xDA f (.mon f) → ∀ until_ line, x.stage = .lost until_ line →
      if s.now cid < until_ then Waits (.mon f) s cid else Machine.exec (.mon f) s = .next ((s.touch [task]).trapAt cid six))
    ∧ (Ready s cid 0xDA f (.mon f) → x.stage = .fresh → f.fn.getLsbD 0 = false →
      match s.resolve cid a 1 with
      | none => TrapsRow (.mon f) s cid 4 a 0
      | some (sp, off) => Arms (.mon f) s cid (match sp with | .side g => if g = gridOf cid then 8 else 40 | .scratch _ => 60) (some sp) (off / 64))
    ∧ (Ready s cid 0xDA f (.mon f) → f.fn.getLsbD 0 = true → ∀ until_, (x.stage = .fresh ∧ until_ = s.now cid + 2 ^ 20 ∨ x.stage = .walking until_) →
        let va := a.toNat % 2 ^ 52
        let b := s.blockOf x
        let r := b.hdr.regions.getD (bitsOf a 63 60) {}
        let looksAgain (u : Nat) : Prop := ∃ t, Machine.exec (.mon f) s = .next t ∧ (t.ctx cid).stage = .walking u ∧ t.fileOf cid = s.fileOf cid ∧ Spares s t cid
        if bitsOf a 59 52 ≠ 0 then TrapsRow (.mon f) s cid 4 a 0
        else if ¬ (bitsOf a 63 60 < b.hdr.nreg ∧ r.isAtomic = true ∧ r.holds va = true) then TrapsRow (.mon f) s cid 7 (BitVec.ofNat 64 va) 0
        else match s.translate (clusterOf (gridOf cid)) b.fn va with
          | .miss => (s.walkHeld b.fn va = true → looksAgain (s.now cid + 2 ^ 20))
              ∧ (s.walkHeld b.fn va = false → if until_ ≤ s.now cid then TrapsRow (.mon f) s cid 6 (BitVec.ofNat 64 va) 0 else looksAgain until_)
          | .ok 0 target _ _ true => ((∀ home, s.localHome target = .ok home → if s.heldPa target = true then looksAgain (s.now cid + 2 ^ 20) else Arms (.mon f) s cid 1 none (target / 64))
              ∧ ∀ e, s.localHome target = .error e → TrapsRow (.mon f) s cid 6 (BitVec.ofNat 64 va) 0)
          | _ => TrapsRow (.mon f) s cid 6 (BitVec.ofNat 64 va) 0)
    ∧ (Ready s cid 0xDB f (.mwait f) →
        let limit := a.toNat
        let gone := match x.stage with | .waitingSince c p => p + (s.now cid - c) | _ => 0
        let ret (r : Nat) : Prop := Makes (.mwait f) s cid (joining s cid (putS { x with watch := none, wake := none } f (BitVec.ofNat 64 r))) (s.nextPc cid (.mwait f))
        (∀ r, x.wake = some r → ret r)
        ∧ (x.wake = none → x.stage = .fresh → x.watch = none → ret 4)
        ∧ (x.wake = none → ¬ (x.stage = .fresh ∧ x.watch = none) → limit ≠ 0 → limit ≤ gone → ret 1)
        ∧ (x.wake = none → ¬ (x.stage = .fresh ∧ x.watch = none) → (limit = 0 ∨ gone < limit) →
            Parks (.mwait f) s cid (x.stage.issued = false) (.watch (if limit = 0 then none else some (s.now cid + (limit - gone))))))

/-- R297, R298: rinit and rtake ask the range of their block, and end when they are answered, an rtake with the value, 4 cycles and their way there after the answer; an rtake that is kept waits for it.
Once its request has reached the range, an rinit sets it from the low 63 bits of its operands, and waits while a steal of its block is under way; an rtake with a non-empty range takes its lowest index, no thief asking, and with none is
kept. A thief is answered with the upper half of a range of two indices or more, the smaller half where they differ, from which its waiting rows are served in their order; with less the range stays, and a thief with no block left to ask gives its rows all ones. As the model's own choice it rests on the log entries 30, 90, 91. -/
def Obligations.RangeResult : Prop :=
  (∀ (f : Fields) (s : State) (cid : Nat) (b : Block),
    let x := s.ctx cid
    let lat := 4 + s.rangeHops cid
    let asked (i : Instr) (init : Option (Nat × Nat)) : Prop :=
      (x.stage = .fresh → AsksRange i s cid b init)
      ∧ ∀ c, x.stage = .asked c → ((∃ r ∈ b.requests, r.cid = cid) → Waits i s cid) ∧ ((∀ r ∈ b.requests, r.cid ≠ cid) → cid ∈ b.takers → Parks i s cid False .range)
    s.block? x.blk = some b →
    (Ready s cid 0xDC f (.rinit f) →
      asked (.rinit f) (some ((arg x f f.a).toNat % 2 ^ 63, (arg x f f.b).toNat % 2 ^ 63))
      ∧ ∀ v, x.stage = .answered v → Makes (.rinit f) s cid { x with notBefore := max x.notBefore (s.now cid + lat - 1) } (s.nextPc cid (.rinit f)))
    ∧ (Ready s cid 0xDD f (.rtake f) →
      asked (.rtake f) none
      ∧ ∀ v, x.stage = .answered v → Makes (.rtake f) s cid
          { x with inflight := x.inflight ++ [{ id := x.nextId, due := s.now cid + (lat - 1), writes := sWrites f v }], nextId := x.nextId + 1 } (s.nextPc cid (.rtake f))))
  ∧ (∀ (s : State) (blk : Nat) (b : Block) (r : RangeReq), s.block? blk = some b → (s.ctx? r.cid).isSome = true →
      let t := s.serveRange blk r
      (∀ lo hi, r.init = some (lo, hi) → (b.stealing ≠ none ∨ b.takers ≠ [] → t = s)
        ∧ (b.stealing = none → b.takers = [] → b.asked = [] ∨ lo < hi → (t.ctx r.cid).stage = .answered 0
            ∧ ∃ b', t.block? blk = some b' ∧ (b'.lo, b'.hi, b'.hasRange, b'.rinit) = (lo, hi, decide (lo < hi), true)))
      ∧ (r.init = none → b.asked = [] →
        (b.lo < b.hi → (t.ctx r.cid).stage = .answered (BitVec.ofNat 64 b.lo) ∧ ∃ b', t.block? blk = some b' ∧ (b'.lo, b'.hi, b'.hasRange) = (b.lo + 1, b.hi, decide (b.lo + 1 < b.hi)))
        ∧ (¬ b.lo < b.hi → ∃ b', t.block? blk = some b' ∧ (b'.lo, b'.hi, b'.takers) = (b.lo, b.hi, b.takers ++ [r.cid]))))
  ∧ ∀ (s : State) (blk thief : Nat) (b y : Block) (done : List Nat), blk ≠ thief → s.block? blk = some b → s.block? thief = some y → b.asked = [thief] → y.stealing = some (blk, done) →
      y.takers.Nodup → (∀ c ∈ y.takers, (s.ctx? c).isSome = true) →
      let t := s.answerThieves blk
      let m := b.lo + (b.hi - b.lo + 1) / 2
      let n := min y.takers.length (b.hi - m)
      (b.lo + 2 ≤ b.hi → t.block? blk = some { b with hi := m, asked := [] }
        ∧ t.block? thief = some { y with lo := m + n, hi := b.hi, hasRange := decide (m + n < b.hi), stealing := none, takers := y.takers.drop n }
        ∧ ∀ i (h : i < y.takers.length), i < n → (t.ctx y.takers[i]).stage = .answered (BitVec.ofNat 64 (m + i)) ∧ (t.ctx y.takers[i]).parked = none)
      ∧ (b.hi < b.lo + 2 → s.nextVictim thief y (s.ringDist y b) = none → t.block? blk = some { b with asked := [] } ∧ t.block? thief = some { y with stealing := none, takers := [] }
        ∧ ∀ c ∈ y.takers, (t.ctx c).stage = .answered 0xFFFFFFFFFFFFFFFF ∧ (t.ctx c).parked = none)

/-- R35, R41, R46, R47, R48: spawn and invoke hold a record of their six argument registers in the journal, once their target words pass their checks, and count it; unless nowb they write the handle of a new engine future of their block. A
record that fails a check is not held and not counted, and its future fails at once: with status 6 where the row has emitted 4,096 records, else with 4 for words that break their layout, else, for a spawn, with 3 for a node that is no handler. -/
def Obligations.RecordHeld : Prop :=
  ∀ (f : Fields) (s : State) (cid : Nat),
    let x := s.ctx cid
    let b := s.blockOf x
    let w := arg x f f.b
    let q := arg x f f.c
    let args := (List.range 6).flatMap fun i => leBytes 8 (match f.a with | .s n => (x.sreg (n.val + i)).toNat | _ => 0)
    let seq := b.serial * 2 ^ 20 + x.k * 2 ^ 12 + x.emitted
    ∀ e ∈ [(0xE0, Instr.spawn f, bitsOf w 63 16 = 0 ∧ bitsOf w 15 12 ≤ 11, (s.handlerNode? b.slot (bitsOf w 11 0)).isSome = true, (none : Option Nat),
          ({ handler := bitsOf w 11 0, prio := bitsOf w 15 12, spawn := true, source := s.accId, seq := seq, args := args } : Rec)),
        (0xE1, .invoke f, bitsOf w 15 14 = 0 ∧ bitsOf w 63 32 = 0 ∧ bitsOf w 13 10 ≤ 11 ∧ bitsOf q 63 32 = 0, True, some (bitsOf w 9 0),
          { qidx := bitsOf q 31 20, qgen := bitsOf q 19 0, handler := bitsOf w 31 16, prio := bitsOf w 13 10, source := s.accId, seq := seq, args := args })],
      Ready s cid e.1 f e.2.1 →
        ∃ t u h, Machine.exec e.2.1 s = .next t ∧ Owes s cid f u h
          ∧ (t.ctx cid).file = { (match h with | some hd => putS x f (toWord hd) | none => x).file with pc := s.nextPc cid e.2.1 } ∧ Spares s t cid
          ∧ (e.2.2.1 → e.2.2.2.1 → x.emitted ≠ 4096 → (∀ j ∈ s.journal, ¬ (j.serial = b.serial ∧ j.row = x.k ∧ j.emit = x.emitted)) → (t.ctx cid).emitted = x.emitted + 1 ∧ (∀ k, t.future? k = u.future? k)
              ∧ t.journal = s.journal ++ [{ task := b.task, blk := x.blk, serial := b.serial, row := x.k, emit := x.emitted, r := e.2.2.2.2.2, acc := e.2.2.2.2.1, slot := b.slot, fut := h }])
          ∧ ∀ st, x.emitted = 4096 ∧ st = 6 ∨ x.emitted ≠ 4096 ∧ ¬ e.2.2.1 ∧ st = 4 ∨ x.emitted ≠ 4096 ∧ e.2.2.1 ∧ ¬ e.2.2.2.1 ∧ st = 3 →
              (t.ctx cid).emitted = x.emitted ∧ t.journal = s.journal
                ∧ ∀ hd p, h = some hd → pendingIn u hd p → t.future? hd = some { p with state := 3, value := BitVec.ofNat 64 st, cause := 6 }

/-- R49, R50, R281, R320: qnew makes a queue of its words at the lowest index that no queue is using, and writes its handle, or writes a status above it and makes none, and waits with that where a rewrite of the interleave table holds back a walk that it needs (R210); qdel of a live queue of the block's function moves its generation on and reads 0, a stale handle 1, another function's 2; rdone, unless nowb, writes the handle of a new engine future of its block, pending, and closes a region its block
may write, with its flush waiting for the row's stores and the block's operations that write there, and resolves its future through that flush; of a region that is closed already the future resolves with 1, at once if the flush is over and else through it; one that
the block may not write fails it with cause 7. The block has then issued rdone, whatever came of it (R318); with no future entry to be had it waits. As the model's own choice it rests on the log entries 21, 39, 48, 87, 113. -/
def Obligations.QueuesAndRdone : Prop :=
  ∀ (f : Fields) (s : State) (cid : Nat),
    let x := s.ctx cid
    let b := s.blockOf x
    let a := arg x f f.a
    let i := a.toNat / 2 ^ 20
    (Ready s cid 0xE2 f (.qnew f) → (∀ j q, Tables.get? s.queues j = some q → q.gen < 2 ^ 20) →
      (bitsOf a 31 29 ≠ 0 → Makes (.qnew f) s cid { putS x f 0x700000000 with notBefore := s.now cid + 1 } (s.nextPc cid (.qnew f)))
      ∧ (bitsOf a 31 29 = 0 → 11 < bitsOf a 27 24 → Makes (.qnew f) s cid { putS x f 0x300000000 with notBefore := s.now cid + 1 } (s.nextPc cid (.qnew f)))
      ∧ let r := qnewAnswer s b.fn a (arg x f f.b)
        let v : Word64 := BitVec.ofNat 64 (if 2 ^ 40 ≤ r.2 then r.2 - 2 ^ 40 else r.2 * 2 ^ 32)
        let early : Prop := r.2 = 7 ∨ r.2 = 3 ∨ r.2 = 4 ∨ r.2 = 2
        (¬ early → qnewHeld s b.fn a (arg x f f.b) = true → Waits (.qnew f) s cid)
        ∧ (early ∨ qnewHeld s b.fn a (arg x f f.b) = false → ∃ t, Machine.exec (.qnew f) s = .next t ∧ Leaves s t cid { putS x f v with notBefore := s.now cid + 1 } (s.nextPc cid (.qnew f)) ∧ t.queues = r.1.queues
          ∧ (bitsOf v 63 32 ≠ 0 → bitsOf v 31 0 = 0 ∧ t.queues = s.queues)
          ∧ (bitsOf v 63 32 = 0 → ∃ j q, j < 4096 ∧ v = BitVec.ofNat 64 (j * 2 ^ 20 + q.gen) ∧ t.queues = Tables.set j q s.queues
              ∧ (∀ k, k < j → ∃ o, Tables.get? s.queues k = some o ∧ o.inUse = true) ∧ (∀ o, Tables.get? s.queues j = some o → o.inUse = false ∧ q.gen = o.gen) ∧ (Tables.get? s.queues j = none → q.gen = 1)
              ∧ (q.live, q.fn, q.slot, q.node, q.spill, q.cap, q.pages, q.maxPrio) = (true, b.fn, (s.func b.fn).slotBase + bitsOf a 23 12, bitsOf a 11 0, a.getLsbD 28, bitsOf a 47 32, bitsOf a 63 48, bitsOf a 27 24)
              ∧ q.recs = [] ∧ q.used = [] ∧ q.swapped = false)))
    ∧ (Ready s cid 0xE3 f (.qdel f) →
        (∀ q, Tables.get? s.queues i = some q → q.live = true → a.toNat < 2 ^ 32 → q.gen = a.toNat % 2 ^ 20 →
          (q.fn = b.fn → ∃ t, Machine.exec (.qdel f) s = .next t ∧ Leaves s t cid (putS x f 0) (s.nextPc cid (.qdel f))
            ∧ Tables.get? t.queues i = some { q with live := false, gen := if q.gen = 2 ^ 20 - 1 then 1 else q.gen + 1 })
          ∧ (q.fn ≠ b.fn → Makes (.qdel f) s cid (putS x f 2) (s.nextPc cid (.qdel f))))
        ∧ ((∀ q, Tables.get? s.queues i = some q → ¬ (q.live = true ∧ a.toNat < 2 ^ 32 ∧ q.gen = a.toNat % 2 ^ 20)) → Makes (.qdel f) s cid (putS x f 1) (s.nextPc cid (.qdel f))))
    ∧ (Ready s cid 0xE4 f (.rdone f) → f.nowb = false → s.futureFree cid = false → Waits (.rdone f) s cid)
    ∧ (Ready s cid 0xE4 f (.rdone f) → (f.nowb = true ∨ s.futureFree cid = true) →
        let mayClose : Prop := bitsOf a 63 4 = 0 ∧ bitsOf a 3 0 < b.hdr.nreg ∧ (b.hdr.regions.getD (bitsOf a 3 0) {}).isWrite = true
        let closing := s.flushes.find? fun w => w.blk == x.blk && w.reg == bitsOf a 3 0
        ∃ t u h, Machine.exec (.rdone f) s = .next t ∧ Owes s cid f u h
          ∧ (t.ctx cid).file = { (match h with | some hd => putS x f (toWord hd) | none => x).file with pc := s.nextPc cid (.rdone f) } ∧ Spares s t cid
          ∧ (¬ mayClose → t.flushes = s.flushes ∧ ∀ hd p, h = some hd → pendingIn u hd p → t.future? hd = some { p with state := 3, value := failWord 7 0 0, cause := 7 })
          ∧ (mayClose → ∀ w, closing = some w →
              (w.done = true → t.flushes = s.flushes ∧ ∀ hd p, h = some hd → pendingIn u hd p → t.future? hd = some { p with state := 2, value := 1, cause := 0 })
              ∧ (w.done = false → (∀ k, t.future? k = u.future? k) ∧ (t.ctx cid).marks = (handed x f h).marks
                  ∧ t.flushes = s.flushes.map fun e => if e = w then { w with futs := w.futs ++ (match h with | some hd => [(hd, 1)] | none => []) } else e))
          ∧ (mayClose → closing = none → (∀ k, t.future? k = u.future? k) ∧ (t.ctx cid).marks = (handed x f h).marks ∧
              t.flushes = s.flushes ++ [{ blk := x.blk, reg := bitsOf a 3 0, cid := cid, waitStores := x.stores.length, ops := s.writers x.blk (b.hdr.regions.getD (bitsOf a 3 0) {})
                                          futs := match h with | some hd => [(hd, 0)] | none => [] }]
              ∧ ∀ y, s.block? x.blk = some y → ∃ y', t.block? x.blk = some y' ∧ y'.closed = y.closed ++ [bitsOf a 3 0])
          ∧ ∀ y, s.block? x.blk = some y → ∃ y', t.block? x.blk = some y' ∧ y'.rdone = true)

/-! ### The machine as a whole -/

/-- R69 to R82: words written out from the encoding tables decode to the instructions they stand for: sadd.i32.sat s3, s4, s5; sli s5, 100;
sget s5, gridid; yield; trap 7; brk 0x1234; bmz m0, +3; vadd.i16.sat v3, v1, v2; the X form sadd.i64 s3, s4, -2; nop's word of zeros; and
the patterns of R84 that end in 11, use a reserved short opcode, an unassigned opcode, non-zero bits [57:56] or a reserved mod do not decode. -/
def Obligations.DecodeWords : Prop :=
  decode 0x00213FAD15110C41 = .ok (.sadd { fn := 4, mod := .i32, d := .s 3, a := .s 4, b := .s 5 })
  ∧ decode 0x0001BC0193AD148D = .ok (.sli { mod := .i64, d := .s 5, a := .zero, b := .s 36, c := .v 0 })
  ∧ decode 0x00003C0017AD1415 = .ok (.sget { d := .s 5, b := .v 5, c := .v 0 })
  ∧ decode 0x00003FAFAFAFAC1D = .ok (.yield {})
  ∧ decode 0x00003FAFAFEBAC09 = .ok (.trap { a := .const 14 })
  ∧ decode 0x00003C48D3AFAC11 = .ok (.brk { b := .v 52, c := .v 18 })
  ∧ decode 0x00003C000C03ACC9 = .ok (.bmz { a := .v 0, b := .v 3, c := .v 0 })
  ∧ decode 0x0020BFAC08040D41 = .ok (.vaddInt { fn := 4, mod := .i16, d := .v 3, a := .v 1, b := .v 2 })
  ∧ decode 0xFFFFFFFE0001BFAFFD110C42 = .ok (.sadd { form := .x 0xFFFFFFFE, mod := .i64, d := .s 3, a := .s 4, b := .lit })
  ∧ decode 0 = .ok .nopS
  ∧ decode 3 = .error .reservedForm
  ∧ decode 0x40 = .error .shortOpcode
  ∧ decode 0x00003FAFAFAFAC2D = .error .opcode
  ∧ decode 0x01003FAFAFAFAC1D = .error .reservedBits
  ∧ decode 0x00073FAFAFAFAC1D = .error .reservedMod

/-- R67 to R84: every instruction of a program that obeys its rules has an encoding, and its bytes, whatever follows them, decode to it with
every operand, field and literal, and to nothing more than its length. R84: no pattern means what another means. What decodes is an instruction of a program that obeys its rules, and the pattern is its
encoding. -/
def Obligations.DecodeEncode : Prop :=
  (∀ (i : Instr), i.program = true → i.wf = true →
      ∃ w, encode i = some w ∧ w < 2 ^ (8 * i.len) ∧ decode w = .ok i ∧ ∀ tail, decodeBytes (leBytes i.len w ++ tail) = (.ok i, tail))
  ∧ (∀ (w : Nat) (i : Instr), decode w = .ok i → w < 2 ^ (8 * i.len) → i.program = true ∧ i.wf = true ∧ encode i = some w)

/-- R134, R135: the T4 codes, in units of 2 to the power −21, and NaR; the positive T6 codes, in units of 2 to the power −9, NaR at 0x20, and the negative of code c at 0x20 + c. -/
def Obligations.T4AndT6Codes : Prop :=
  ((List.range 16).map (fun c => if tNar .t4 c then none else some (tVal .t4 c))
      = [some 0, some (4 * 2 ^ 21), some (2 * 2 ^ 21), some (2 ^ 19), some (2 ^ 21), some (3 * 2 ^ 20), some (2 ^ 20), some (3 * 2 ^ 19),
         none, some (-(4 * 2 ^ 21)), some (-(2 * 2 ^ 21)), some (-(2 ^ 19)), some (-(2 ^ 21)), some (-(3 * 2 ^ 20)), some (-(2 ^ 20)), some (-(3 * 2 ^ 19))])
  ∧ (List.range 32).map (fun c => tVal .t6 c) = [0, 262144, 131072, 1, 32768, 65536, 4, 2, 2048, 4096, 8192, 16384, 64, 32, 16, 8, 512, 640, 768, 896, 1024, 1280, 1536,
      1792, 256, 320, 384, 448, 128, 160, 192, 224].map (fun (n : Int) => n * 2 ^ 12)
  ∧ (∀ c, c < 64 → (tNar .t6 c = true ↔ c = 0x20)) ∧ ∀ c, 0 < c → c < 32 → tVal .t6 (0x20 + c) = -tVal .t6 c

/-- R67, R68, R85, R88, R89: a context whose turn it is, that does not rest and has no instruction that issued before and waits to complete, executes
the instruction that its bytes decode to; bytes that decode to none trap with cause 0x01 (R84, R86). Where the row holds no loop buffer the bytes are those
of the instruction cache at its PC. An instruction that has issued and waits is completed as it was read: it is fetched no more. R81, R87: a PC that an
offset branch has carried past bit 51 traps at its fetch with cause 0x06 and the wrapped PC as trappc and trapaddr, whatever is mapped or cached there
(the model's choice of the address, log entry 59). An event on the agenda, or with an empty agenda the next input, is executed as it stands (the model's
order of actions). As the model's own choice it rests on the log entries 2, 3, 35, 59. -/
def Obligations.StepRunsDecoded : Prop :=
  (∀ (s : State) (cid : Nat) (rest : List Action) (x : Ctx) (bs : List Byte),
    s.agenda = .issue cid :: rest → s.ctx? cid = some x → resting x (s.now cid) = false → x.going = none → x.wrapped = false →
    let u := ({ s with agenda := rest }).tendBuffer cid
    fetchInstr u cid = .bytes bs →
      (∀ i, (decodeBytes bs).1 = .ok i → step s = Machine.exec i { u with cur := some cid })
      ∧ ∀ e, (decodeBytes bs).1 = .error e → step s = .next (u.trapAt cid (rawTrap (u.ctx cid) bs)))
  ∧ (∀ (s : State) (cid : Nat) (rest : List Action) (x : Ctx), s.agenda = .issue cid :: rest → s.ctx? cid = some x → resting x (s.now cid) = false → x.going = none → x.wrapped = true →
      step s = .next (({ s with agenda := rest }).trapAt cid { cause := 6, pc := x.pc, addr := x.pc }))
  ∧ (∀ (s : State) (cid : Nat) (rest : List Action) (x : Ctx) (i : Instr) (bs : List Byte),
    s.agenda = .issue cid :: rest → s.ctx? cid = some x → resting x (s.now cid) = false →
    (s.prow (rowOf cid)).buf = none → x.icinvNext = false → x.going = none → x.wrapped = false →
    cachedBytes (s.grid (gridOf cid)) (s.blockOf x).fn x.pc.toNat i.len = .ok bs → (decodeBytes bs).1 = .ok i →
      step s = Machine.exec i { s with agenda := rest, cur := some cid })
  ∧ (∀ (s : State) (cid : Nat) (rest : List Action) (x : Ctx) (i : Instr), s.agenda = .issue cid :: rest → s.ctx? cid = some x → resting x (s.now cid) = false →
    x.going = some i → step s = Machine.exec i { s with agenda := rest, cur := some cid })
  ∧ (∀ (s : State) (i : Instr) (rest : List Action), s.agenda = .event i :: rest → step s = Machine.exec i { s with agenda := rest })
  ∧ ∀ (s : State) (i : Instr) (rest : List Instr), s.agenda = [] → s.inputs = i :: rest → step s = Machine.exec i { s with inputs := rest }

/-- What R203, R210, R349, R352 and R357 give the device's registers at reset, with nothing resident, nothing on its way and every slot's word 0x00FE.
That memory and every register without a stated reset value read 0 is the model's choice (log entries 1 and 14). -/
def Obligations.ResetState : Prop :=
  State.reset.dsplit = 2 ∧ State.reset.dsplitLocked = false
  ∧ (∀ j, j < 256 → State.reset.itable[j]? = some (j % 4)) ∧ State.reset.itgen = 1 ∧ State.reset.itbusy = false ∧ State.reset.itstatus = 0
  ∧ State.reset.plim = 2800 ∧ State.reset.pwr = 0 ∧ State.reset.clamp = false
  ∧ State.reset.ecntDrop = 0 ∧ State.reset.ecntLast = 0 ∧ State.reset.ecntTrans = 0
  ∧ State.reset.kickCount = 0
  ∧ (∀ n, (State.reset.slot n).code = 0x00FE ∧ (State.reset.slot n).kick = 0)
  ∧ (∀ cid, State.reset.ctx? cid = none) ∧ State.reset.blocks = [] ∧ State.reset.tasks = [] ∧ State.reset.replays = []
  ∧ ∀ a, State.reset.home.read a = 0 ∧ State.reset.side.read a = 0 ∧ State.reset.scratch.read a = 0

/-- The standing invariant holds at reset: memories canonical, the interleave table even (R209), the split legal (R203), the power limit
between 400 and 2,800 W (R349), the counts of ECNT within 16 bits (R352). -/
def Obligations.ResetInv : Prop := State.reset.Inv

/-- The standing invariant holds after every step from every state in which it holds: R203, R209, R210, R349, R352, and the canonical form of
every memory. -/
def Obligations.InvKept : Prop := ∀ (s t : State), s.Inv → step s = .next t → t.Inv

/-- Every state has a next state, and every constructor of Instr, program instruction or event, with whatever operands, answers a next state in every state: none stops the part (R2, R85). What that next
state holds, by its own effect, the statements of its family say. -/
def Obligations.EveryStepGoesOn : Prop := (∀ (s : State), ∃ t, step s = .next t) ∧ ∀ (i : Instr) (s : State), ∃ t, Machine.exec i s = .next t

/-- The instructions of a program that write a memory as they issue: the local atomics and the bank operations (R225, R250). -/
def Sys2Proof.Claims.writesAtIssue : Instr → Bool
  | .atom _ | .satom _ | .acas _ | .sacas _ | .bkbcast _ | .bkmac _ | .bkclr _ | .bkscan _ => true
  | _ => false

/-- R59, R62, R76: an instruction of a program changes the registers of the context that issues it and of no other: no context reads or
writes another's registers. R198, R218, R227: an instruction of a program other than a local atomic or a bank operation changes no byte of any memory as it issues: a store's bytes
reach home by HOME_STORE, a Leat operation's by its beats. -/
def Obligations.NothingElseChanges : Prop :=
  (∀ (i : Instr) (s t : State) (c : Nat), i.program = true → Machine.exec i s = .next t → s.cur ≠ some c → t.fileOf c = s.fileOf c)
  ∧ (∀ (i : Instr) (s t : State), i.program = true → writesAtIssue i = false → Machine.exec i s = .next t → SameMem s t)

namespace Sys2Proof.Claims
open Sys2Proof Sys2Proof.Machine

/-! ### Events -/
/-- No byte of any memory and no register of any context changes. -/
def Quiet (s t : State) : Prop := SameMem s t ∧ ∀ c, t.fileOf c = s.fileOf c
/-- The event answers a next state of which P holds. -/
def Goes (i : Instr) (s : State) (P : State → Prop) : Prop := ∃ t, Machine.exec i s = .next t ∧ P t
/-- 64 KiB units of the scratchpad under a split (R203). -/
def unitsOf (split : Nat) : Nat := match split with | 0 => 2048 | 1 => 1792 | 2 => 1536 | _ => 1024
/-- Two ranges, of k from a and of n from b, share an element. -/
def meets (a k b n : Nat) : Prop := ∃ x, a ≤ x ∧ x < a + k ∧ b ≤ x ∧ x < b + n
/-- Entry j of the staged interleave table (R210). -/
def stagedAt (s : State) (j : Nat) : Nat := ((s.staging (j / 32)) >>> (2 * (j % 32))).toNat % 4
/-- Each M-die has 64 of the 256 entries (R209). -/
def evenTable (t : Nat → Nat) : Bool := [0, 1, 2, 3].all fun m => ((List.range 256).filter fun j => t j == m).length == 64
/-- From s to t the bytes of l stand at direct address a on, and nothing else of any memory or of any context's registers changes. -/
def Wrote (s t : State) (a : Nat) (l : List Byte) : Prop :=
  (∀ x, t.home.read x = if a ≤ x ∧ x < a + l.length then l.getD (x - a) 0 else s.home.read x)
    ∧ SameMem s { t with home := s.home } ∧ ∀ c, t.fileOf c = s.fileOf c
/-- What a register of a range entry takes of a written value (R211): RBASE and RLIM bits [51:12], ROFF [63:12], RATTR [20:16] and [5:0]. -/
def rangeField (k v : Nat) : Nat :=
  match k with | 0 | 1 => v / 2 ^ 12 % 2 ^ 40 * 2 ^ 12 | 2 => v / 2 ^ 12 % 2 ^ 52 * 2 ^ 12 | _ => v / 2 ^ 16 % 2 ^ 5 * 2 ^ 16 + v % 2 ^ 6
/-- The registers of the management space (R348), each with what it reads: DSPLIT, ITCTL, WOVL, MPWR, PCLAMP and ECNT, then by number ITMAP, SCRW, PTROOT, the range table, WSUP
and WSTAT, MCADW and GTEMP (R118, R119, R203, R204, R210, R211, R213, R321, R349, R350, R352). -/
def mgmtWords (s : State) : List (Nat × Nat) :=
  [(0x00, s.dsplit), (0x08, ofBool s.itbusy * 2 ^ 32 + s.itstatus * 2 ^ 16 + s.itgen), (0x18, (s.tasks.filter fun e => e.2.active).length * 2 ^ 32 + s.wovlHeld), (0x20, s.pwr),
    (0x28, s.plim * 2 ^ 16 + ofBool s.clamp), (0x30, s.ecntDrop * 2 ^ 48 + s.badPages.length % 2 ^ 16 * 2 ^ 32 + s.ecntLast * 2 ^ 16 + s.ecntTrans)]
  ++ ((List.range 8).map fun k => (0x40 + 8 * k, (s.staging k).toNat)) ++ ((List.range 17).map fun f => (0x100 + 8 * f, (s.func f).scrCount * 2 ^ 32 + (s.func f).scrBase))
  ++ ((List.range 17).map fun f => (0x200 + 8 * f, (s.func f).ptroot)) ++ ((List.range 256).map fun i => (0x1000 + 8 * i, ((s.rangeAt (i / 4)).get (i % 4)).toNat))
  ++ ((List.range 16).map fun c => (0x2000 + 16 * c, Config.wheelCeil c % 2 ^ 14 * 2 ^ 32 + Config.wheelFloor * 2 ^ 16 + (s.cluster c).target))
  ++ ((List.range 16).map fun c => (0x2008 + 16 * c, ((s.cluster c).free + (s.cluster c).held) % 2 ^ 14 * 2 ^ 40 + (s.cluster c).held % 2 ^ 14 * 2 ^ 26
      + s.reservations c % 2 ^ 12 * 2 ^ 14 + (s.cluster c).free % 2 ^ 14))
  ++ ((List.range 384).map fun g => (0x4000 + 8 * g, (s.grid g).mcadNext.getD (s.grid g).mcad))
  ++ (List.range 384).map fun g => (0x6000 + 8 * g, ofBool (s.grid g).tempValid * 2 ^ 16 + (s.grid g).temp.toNat)
/-- The answer of an SPDM request, none of a device in recovery (R353, R354). -/
def answers (s : State) (code : Byte) (data : List Byte) : State := if s.recovery then s else { s with out := s.out ++ [.spdm code data] }
end Sys2Proof.Claims

/-- R203, R204, R210, R214: the registers of the scratchpad's split and windows, of the interleave table and of the translation caches. DSPLIT takes its
split until it is locked; a window is taken where it fits and meets no other; a commit starts a rewrite of an even staging and refuses another; the
switch waits for interleaved requests of every kind (beats, fills, monitors, walks), moves the generation on and lets the held accesses go, to the homes of the new table; an invalidation drops a function's entries in every cluster. R118, R119, R349: PCLAMP keeps its limit between 400 and 2,800 W; a reading whose 100 µs average is above the limit clamps and sends every target to the floor, and its 1 ms average is the power shown; a 1
clears the clamp below 95 per cent of the limit; a target is kept between floor and ceiling, and is the floor while the clamp is on; a cadence is
kept between 1 and 16 and starts with the next step that enters the top of a band of the grid, once no top-up is owed. A commit ignored during a rewrite and the status of 0 after one are the model's choice (log entries 100, 15). As the model's own choice it rests on the log entries 15, 54, 61, 62, 71, 80, 83, 100, 113. -/
def Obligations.ManagementAndPower : Prop :=
  ((∀ (v : Word64) (s : State), if s.dsplitLocked then Machine.exec (.dsplitWrite v) s = .next s
      else Goes (.dsplitWrite v) s fun t => t.dsplit = v.toNat % 4 ∧ (t.func 0).scrBase = 0 ∧ (t.func 0).scrCount = unitsOf (v.toNat % 4)
        ∧ (∀ f, f ≠ 0 → (t.func f).scrBase = 0 ∧ (t.func f).scrCount = 0) ∧ (∀ f, (t.func f).slotCount = (s.func f).slotCount ∧ (t.func f).ptroot = (s.func f).ptroot) ∧ Quiet s t)
    ∧ (∀ (f : Nat) (v : Word64) (s : State), f < 17 →
        let base := v.toNat % 2048
        let count := v.toNat / 2 ^ 32 % 4096
        let fits := base + count ≤ unitsOf s.dsplit ∧ ∀ w, w < 17 → w ≠ f → ¬ meets base count (s.func w).scrBase (s.func w).scrCount
        (fits → Goes (.scrwWrite f v) s fun t => t.func f = { s.func f with scrBase := base, scrCount := count } ∧ (∀ w, w ≠ f → t.func w = s.func w) ∧ Quiet s t)
        ∧ (¬ fits → Machine.exec (.scrwWrite f v) s = .next s))
    ∧ (∀ (v : Word64) (s : State), Machine.exec (.itctlCommit v) s = .next (
        if s.itbusy || !v.getLsbD 32 then s else if evenTable (stagedAt s) then { s with itbusy := true } else { s with itstatus := 1 }))
    ∧ (∀ (s : State), s.itbusy = true →
        (∀ g ∈ s.grids, (∀ o ∈ g.2.leat, ∀ b ∈ o.beats, b.answer = none → b.kind = 0 → bitAt b.target 44 = false) ∧ ∀ l ∈ g.2.fills, bitAt l.target 44 = false) →
        (∀ e ∈ s.ctxs, ∀ due line, e.2.stage = .arming due none line ∨ e.2.stage = .lost due line → bitAt (64 * line) 44 = false) → (∀ d ∈ s.cdies, ∀ w ∈ d.2.walks, ∀ pa ∈ walkReads s w.1 (4096 * w.2.1), bitAt pa 44 = false) → evenTable (stagedAt s) = true →
        Goes .itableSwitch s fun t => t.itbusy = false ∧ t.itstatus = 0 ∧ t.itable = (List.range 256).map (stagedAt s)
          ∧ t.itgen = (if s.itgen = 0xFFFF then 1 else s.itgen + 1) ∧ t.heldBacks = [] ∧ t.heldReqs = [] ∧ t.agenda = s.heldReqs.map .event ++ s.agenda ∧ (∀ c, t.fileOf c = s.fileOf c)
          ∧ (s.heldBacks = [] → SameMem s t) ∧ ∀ n pa l a, s.Inv → s.heldBacks = [(n, pa, l)] → t.homeOf pa = some a → (s.memBad a = false → Wrote s t a l) ∧ (s.memBad a = true → Wrote s t a []))
    ∧ ∀ (v : Word64) (s : State), Goes (.tlbinvWrite v) s fun t => Quiet s t ∧ ∀ c, (t.cluster c).tlb = (s.cluster c).tlb.filter fun p => p.fn != v.toNat)
  ∧ ((∀ (v : Word64) (s : State), Machine.exec (.pclampLimitWrite v) s = .next { s with plim := min 2800 (max 400 (v.toNat / 65536 % 4096)) })
    ∧ (∀ (v : Word64) (s : State), Machine.exec (.pclampClampClear v) s
        = .next { s with clamp := s.clamp && !(v.getLsbD 0 && decide (s.pwr * 100 < s.plim * 95000)) })
    ∧ (∀ (p : PowerReading) (s : State), Goes (.powerClamp p) s fun t => t.pwr = min p.last1ms (2 ^ 32 - 1) ∧ t.plim = s.plim ∧ Quiet s t
        ∧ (if p.last100us ≤ 1000 * s.plim then t.clamp = s.clamp ∧ t.clusters = s.clusters else t.clamp = true ∧ ∀ c, c < 16 → t.cluster c = { s.cluster c with target := Config.wheelFloor }))
    ∧ (∀ (c : Nat) (v : Word64) (s : State), Goes (.wsupWrite c v) s fun t => Quiet s t
        ∧ t.cluster c = { s.cluster c with target := if s.clamp then Config.wheelFloor else min (Config.wheelCeil c) (max Config.wheelFloor (v.toNat % 2 ^ 14)) }
        ∧ ∀ e, e ≠ c → t.cluster e = s.cluster e)
    ∧ (∀ (g : Nat) (v : Word64) (s : State), Goes (.mcadwWrite g v) s fun t => Quiet s t ∧ (t.grid g).mcadNext = some (min 16 (max 1 (v.toNat % 32)))
        ∧ ∀ e, e ≠ g → t.grid e = s.grid e)
    ∧ ∀ (cid n : Nat) (x : Ctx) (l : Loop) (s : State), s.ctx? cid = some x → x.loop = some l → l.top = true → l.shed = false → l.halted = false → l.doneAt = none → (s.blockOf x).phase ≠ .stopping false →
        stepInputs s cid l = true → stepTime s cid l = true → (s.grid (gridOf cid)).mcadNext = some n →
        Goes (.loopStep cid) s fun t => if (s.grid (gridOf cid)).topups = [] then (t.grid (gridOf cid)).mcad = n ∧ (t.grid (gridOf cid)).mcadNext = none
          else (t.grid (gridOf cid)).mcad = (s.grid (gridOf cid)).mcad ∧ (t.grid (gridOf cid)).mcadNext = some n)

/-- R6, R28, R348, R351: a register write is the event of the register it is aimed at: KICK, UPCTL and the VFSLOT entries of a function's BAR0, and of
the management space DSPLIT, ITCTL, TLBINV, the SCRW, WSUP and MCADW entries; a plain register takes its fields, PTROOT and the registers of the range table theirs (R211, R213). A DOE request writes as such, reads
back what each register of the space holds, and gives the list of retired pages (R352). Promorvo's writes reach the host inside a window and are dropped and counted outside. R353, R354: each attestation request is answered with its response and changes nothing else; a request that the part does not support, and an index
of measurements past the fourth, with an error; the algorithms are ECDSA P-521 and SHA-512; the third measurement is the fused configuration, rollback counter, Wheel floor and ceilings, the fourth the split and the table's generation. The codes are the family's (log
entry 72), the layouts of the third and fourth measurements and of the list of pages the model's choice (log entries 73, 105); that MCADW reads the value last written and that WOVL counts the tasks active at the read is the model's reading (log entries 62, 76). As the model's own choice it rests on the log entries 62, 70, 72, 73, 74, 76, 105. -/
def Obligations.RegistersAndAttestation : Prop :=
  ((∀ (fn off : Nat) (v : Word64) (s : State), s.recovery = false → fn < 17 →
      Machine.exec (.registerWrite (.bar0 fn) 0x00 v) s = Machine.exec (.kick fn 8 v []) s
      ∧ Machine.exec (.registerWrite (.bar0 fn) 0x10 v) s = Machine.exec (.uploadCommit fn v) s
      ∧ (off < 16 → Machine.exec (.registerWrite (.bar0 fn) (0x100 + 8 * off) v) s = Machine.exec (.vfslotWrite fn off v) s)
      ∧ Goes (.registerWrite (.bar0 fn) 0x18 v) s fun t => t.func fn = { s.func fn with winbase := v.toNat / 2 ^ 36 % 2 ^ 12 } ∧ (∀ w, w ≠ fn → t.func w = s.func w) ∧ Quiet s t)
    ∧ (∀ (i : Nat) (v : Word64) (s : State), s.recovery = false →
        ∀ e ∈ [(0x00, Instr.dsplitWrite v), (0x08, .itctlCommit v), (0x10, .tlbinvWrite v)] ++ (if i < 17 then [(0x100 + 8 * i, .scrwWrite i v)] else [])
            ++ (if i < 16 then [(0x2000 + 16 * i, .wsupWrite i v)] else []) ++ (if i < 384 then [(0x4000 + 8 * i, .mcadwWrite i v)] else []),
          Machine.exec (.registerWrite .mgmt e.1 v) s = Machine.exec e.2 s ∧ Machine.exec (.mgmtDoeRequest (.write e.1 v)) s = Machine.exec e.2 s)
    ∧ (∀ (k : Nat) (v : Word64) (s : State), k < 8 →
        Machine.exec (.registerWrite .mgmt (0x40 + 8 * k) v) s = .next { s with itmap := Tables.set k v s.itmap })
    ∧ (∀ (f : Nat) (v : Word64) (s : State), f < 17 → Goes (.registerWrite .mgmt (0x200 + 8 * f) v) s fun t => Quiet s t
        ∧ t.func f = { s.func f with ptroot := v.toNat / 2 ^ 16 % 2 ^ 32 * 2 ^ 16 + v.toNat % 2 } ∧ ∀ w, w ≠ f → t.func w = s.func w)
    ∧ (∀ (i k : Nat) (v : Word64) (s : State), i < 64 → k < 4 → Goes (.registerWrite .mgmt (0x1000 + 32 * i + 8 * k) v) s fun t => Quiet s t
        ∧ ((t.rangeAt i).get k).toNat = rangeField k v.toNat ∧ (∀ j, j < 4 → j ≠ k → (t.rangeAt i).get j = (s.rangeAt i).get j) ∧ ∀ j, j ≠ i → t.rangeAt j = s.rangeAt j)
    ∧ (∀ (off : Nat) (v : Word64) (s : State), s.recovery = false → Machine.exec (.mgmtDoeRequest (.write off v)) s = Machine.exec (.registerWrite .mgmt off v) s)
    ∧ (∀ (s : State), s.recovery = false → ∀ e ∈ mgmtWords s, Machine.exec (.mgmtDoeRequest (.read e.1)) s = .next { s with out := s.out ++ [.doe (BitVec.ofNat 64 e.2)] })
    ∧ (∀ (s : State), s.recovery = false → Machine.exec (.mgmtDoeRequest .pages) s
        = .next { s with out := s.out ++ .doe (BitVec.ofNat 64 s.badPages.length) :: s.badPages.map fun p => .doe (BitVec.ofNat 64 (4096 * p)) })
    ∧ (∀ (addr : Nat) (data : List Byte) (s : State), Machine.exec (.promorvoHostWrite addr data) s = .next (
        if s.hostWins.any fun w => decide (w.1 ≤ addr / 4096) && decide ((addr + data.length - 1) / 4096 ≤ w.2) then { s with out := s.out ++ [.hostWrite addr data] }
        else { s with ecntDrop := min 65535 (s.ecntDrop + 1) }))
    ∧ ∀ (k : Nat) (v : Word64) (s : State), k < 2 → ∀ w, s.hostWins[k]? = some w →
        Machine.exec (.registerWrite (.window k) 0 v) s = .next { s with hostWins := s.hostWins.set k (v.toNat / 4096, w.2) }
        ∧ Machine.exec (.registerWrite (.window k) 8 v) s = .next { s with hostWins := s.hostWins.set k (w.1, v.toNat / 4096) })
  ∧ (∀ (s : State) (slot : Nat) (nonce : BitVec 256) (code : Byte),
      Machine.exec .getVersion s = .next (answers s 0x04 (Config.spdmBytes 0x84 0)) ∧ Machine.exec .getCapabilities s = .next (answers s 0x61 (Config.spdmBytes 0xE1 0))
      ∧ Machine.exec .negotiateAlgorithms s = .next (answers s 0x63 (leBytes 4 0x100 ++ leBytes 4 4 ++ Config.spdmBytes 0xE3 0)) ∧ Machine.exec .getDigests s = .next (answers s 0x01 (Config.spdmBytes 0x81 0))
      ∧ Machine.exec (.getCertificate slot) s = .next (answers s 0x02 (Config.spdmBytes 0x82 slot))
      ∧ Machine.exec (.challenge nonce) s = .next (answers s 0x03 (Config.spdmBytes 0x83 nonce.toNat))
      ∧ Machine.exec (.spdmUnsupportedRequest code) s = .next (answers s 0x7F [7])
      ∧ Machine.exec (.getMeasurements 0) s = .next (answers s 0x60 [4])
      ∧ (∀ i ∈ [1, 2], Machine.exec (.getMeasurements i) s = .next (answers s 0x60 (Config.measurement i)))
      ∧ Machine.exec (.getMeasurements 3) s = .next (answers s 0x60 (leBytes 8 Config.rollbackCounter ++ leBytes 2 Config.wheelFloor ++ (List.range 16).flatMap fun c => leBytes 2 (Config.wheelCeil c)))
      ∧ Machine.exec (.getMeasurements 4) s = .next (answers s 0x60 (leBytes 1 s.dsplit ++ leBytes 2 s.itgen))
      ∧ ∀ i, 4 < i → i ≠ 255 → Machine.exec (.getMeasurements i) s = .next (answers s 0x7F [1]))

namespace Sys2Proof.Claims
open Sys2Proof Sys2Proof.Machine

/-! ### The host and its resets -/
/-- The byte at a PA; one that names no memory reads 0 (R28, R208). -/
def paByte (s : State) (pa : Nat) : Byte := match s.homeOf pa with | some a => s.home.read a | none => 0
/-- The state with one more output. -/
def sent (s : State) (o : Output) : State := { s with out := s.out ++ [o] }
/-- How accesses from outside reach memory (R26, R28, R210, R247, R292, R352): ok says which offsets are answered, pa where they lie. A read sends the bytes; a write within a
line puts its bytes home; a write across lines is its pieces one after the other; an atomic sends the old value and writes the new one, but for a compare
that fails. One to an interleaved PA is held while the interleave table is rewritten; one to a page that is bad fails, and bad is what is sent. -/
def Serves (mk : Nat → MemAcc → Instr) (ok : Nat → Prop) (pa : Nat → Nat) (reply : List Byte → Output) (bad : Output) (s : State) : Prop :=
  ∀ off, ok off →
    let clear (n : Nat) : Prop := s.heldPa (pa off) = false ∧ s.paBad (pa off) n = false
    (∀ acc, s.heldPa (pa off) = true → Machine.exec (mk off acc) s = .next { s with heldReqs := s.heldReqs ++ [mk off acc] })
    ∧ (∀ acc, s.heldPa (pa off) = false → s.paBad (pa off) (accSize acc) = true → Machine.exec (mk off acc) s = .next (sent s bad))
    ∧ (∀ n, clear n → Machine.exec (mk off (.read n)) s = .next (sent s (reply ((List.range n).map fun i => paByte s (pa off + i)))))
    ∧ (∀ l a, clear l.length → pa off % 64 + l.length ≤ 64 → s.homeOf (pa off) = some a → Goes (mk off (.write l)) s fun t => Wrote s t a l ∧ t.out = s.out)
    ∧ (∀ l r t, clear (l.length + r.length) → pa (off + l.length) % 64 = 0 → s.heldPa (pa (off + l.length)) = false → ok (off + l.length) → Machine.exec (mk off (.write l)) s = .next t →
        Machine.exec (mk off (.write (l ++ r))) s = Machine.exec (mk (off + l.length) (.write r)) t)
    ∧ (∀ op ty x e a, clear (tyWidth ty / 8) → s.homeOf (pa off) = some a →
        let n := tyWidth ty / 8
        let old := s.home.num a n
        let new := if atomWrites op ty old e.toNat then atomApply op ty old x.toNat e.toNat else old
        Goes (mk off (.atomic op ty x e)) s fun t => Wrote s t a (leBytes n new) ∧ t.out = s.out ++ [reply (leBytes n old)])
/-- A node of an image that a replay starts at once: seeded, not a handler, no successor of another (R23). -/
def startsAtOnce (m : Mem) (k : Nat) : Bool :=
  let ns := Image.nodes m
  decide (k < ns.length) && !(ns.getD k {}).handler && (ns.getD k {}).seedcount != 0 && ns.all fun n => !n.succ.contains k
/-- No block of the task is placed: each waits to be placed again, or is over with a task that has failed. -/
def Afresh (t : State) (task : Nat) : Prop := ∀ k b, t.block? k = some b → b.task = task → b.phase = .ready ∨ b.phase = .retired
end Sys2Proof.Claims

/-- R26, R28, R208, R210, R211, R217, R247, R292, R352, R353: the host through BAR2's window and its two CXL ranges, and a peer through a PA, read, write and update memory at home; what reaches
a bad page fails, and an interleaved access waits while the interleave table is rewritten; a peer's access that names no memory gets an error (log entry 75). In recovery the host reads zeros through BAR2, by an
atomic too, and writes nothing. As the model's own choice it rests on the log entries 7, 70, 75, 105. -/
def Obligations.OutsideAccess : Prop :=
  (∀ (fn : Nat) (s : State), s.Inv → s.recovery = false →
    Serves (.hostBar2Access fn) (fun off => off < 2 ^ 36) (fun off => (s.func fn).winbase * 2 ^ 36 + off) .readData (.accessFailed 6) s
    ∧ Serves (.hostCxlMemAccess 0) (fun off => off < 2 ^ 39) (fun off => 0x100000000000 + off) .readData (.accessFailed 6) s
    ∧ Serves (.hostCxlMemAccess 1) (fun off => off < 2 ^ 40) (fun off => 0x900000000000 + off) .readData (.accessFailed 6) s)
  ∧ (∀ (acc : Nat) (s : State), s.Inv → Serves (.fabricMemoryRequest acc) (fun pa => (s.homeOf pa).isSome = true) (fun pa => pa) (.answer acc) .linkError s)
  ∧ (∀ (acc pa : Nat) (a : MemAcc) (s : State), s.homeOf pa = none → Machine.exec (.fabricMemoryRequest acc pa a) s = .next (sent s .linkError))
  ∧ ∀ (fn off n : Nat) (l : List Byte) (s : State), off < 2 ^ 36 → s.recovery = true →
      Machine.exec (.hostBar2Access fn off (.read n)) s = .next (sent s (.readData (List.replicate n 0)))
      ∧ Machine.exec (.hostBar2Access fn off (.write l)) s = .next s
      ∧ ∀ op ty x e, Machine.exec (.hostBar2Access fn off (.atomic op ty x e)) s = .next (sent s (.readData (List.replicate (tyWidth ty / 8) 0)))

/-- R9, R20, R21, R23, R27 to R33, R91, R203: a VF's slot range is taken from the PF where it overlaps no other's; an upload commit marks its slot and locks DSPLIT, and when no replay of the
slot runs the window is copied, checked and reported in the slot's word, with every instruction cache emptied, while handler records accepted before keep the node header under which they were (log entry 114); a write of UPCTL changes nothing while a commit is pending. A kick waits while a rewrite of the
interleave table holds what it reads or a write of its function before it (R28, R210); else it counts up its slot's number and starts a replay of the image, or of a private copy to which
its patch table's entries are applied in their order, with its first nodes, or is refused in KSTAT, with its completion word and MSI-X where the slot's image asks for them; a replay of an image without seeded nodes is over at once, with those of its own. As the model's own choice it rests on the log entries 31, 32, 53, 87, 107, 113, 114. -/
def Obligations.UploadAndKick : Prop :=
  (∀ (v : Nat) (val : Word64) (s : State), s.recovery = false → v < 16 →
    let base := val.toNat % 4096
    let count := val.toNat / 2 ^ 16 % 2 ^ 13
    let fits := base + count ≤ 4096 ∧ ∀ w, w < 16 → w ≠ v → ¬ meets base count (s.func (1 + w)).slotBase (s.func (1 + w)).slotCount
    (fits → Goes (.vfslotWrite 0 v val) s fun t => t.func (1 + v) = { s.func (1 + v) with slotBase := base, slotCount := count } ∧ (∀ w, w ≠ 1 + v → t.func w = s.func w) ∧ Quiet s t)
    ∧ (¬ fits → Machine.exec (.vfslotWrite 0 v val) s = .next s) ∧ ∀ fn, fn ≠ 0 → Machine.exec (.vfslotWrite fn v val) s = .next s)
  ∧ (∀ (fn : Nat) (val : Word64) (s : State), s.recovery = false → (s.func fn).commit = none →
      let rel := val.toNat % 4096
      let slot := (s.func fn).slotBase + rel
      if val.getLsbD 12 = true ∧ rel < (s.func fn).slotCount then
        Goes (.uploadCommit fn val) s fun t => t.dsplitLocked = true ∧ t.func fn = { s.func fn with upSlot := rel, commit := some slot }
          ∧ t.slot slot = { s.slot slot with code := 0xFF, badoff := 0, badnode := 0xFFFF } ∧ (∀ n, n ≠ slot → t.slot n = s.slot n) ∧ Quiet s t
      else Goes (.uploadCommit fn val) s fun t => t.func fn = { s.func fn with upSlot := rel } ∧ t.dsplitLocked = s.dsplitLocked ∧ t.slots = s.slots ∧ Quiet s t)
  ∧ (∀ (fn : Nat) (val : Word64) (s : State), (s.func fn).commit ≠ none → Machine.exec (.uploadCommit fn val) s = .next s)
  ∧ (∀ (fn slot : Nat) (s : State), (s.func fn).commit = some slot → (∀ r ∈ s.replays, r.2.slot ≠ slot) →
      let win := (s.func fn).upwin
      let n := win.num 8 4
      let image := win.slice 0 (max n 64)
      let found := Image.check image
      Goes (.uploadCopyValidate fn) s fun t => (t.func fn).commit = none ∧ (∀ g ∈ t.grids, g.2.icache = []) ∧ (t.slot slot).kick = 0 ∧ (t.slot slot).fn = fn
        ∧ (∀ e ∈ t.queues, e.2.slot = slot → e.2.live = false)
        ∧ (∀ (m k : Nat) (r : BinRec), (s.mdie m).inserts[k]? = some r → r.replay = none → ∃ u, (t.mdie m).inserts[k]? = some u ∧ u.r = r.r ∧ u.slot = r.slot ∧ t.binNode u = s.binNode r)
        ∧ (if 2 ^ 22 < n then (t.slot slot).code = 3 ∧ (t.slot slot).badoff = 8
           else (t.slot slot).image = image ∧ (t.slot slot).code = (match found with | some f => f.code | none => 0)) ∧ Quiet s t)
  ∧ (∀ (fn bytes : Nat) (val : Word64) (remote : List Byte) (s : State), s.recovery = false →
      let rel := val.toNat % 4096
      let slot := (s.func fn).slotBase + rel
      let image := (s.slot slot).image
      let ptab := val.toNat / 4096 * 4096
      let word (st detail : Nat) : List Byte := leBytes 8 (st * 2 ^ 56 + detail * 2 ^ 48 + rel * 2 ^ 32 + ((s.slot slot).kick + 1) % 2 ^ 32)
      let refused (t : State) (st at_ : Nat) : Prop := t.func fn = { s.func fn with nref := min ((s.func fn).nref + 1) (2 ^ 32 - 1), refSlot := at_, refStatus := st } ∧ t.replays = s.replays
      (s.kickHeld fn bytes val remote = true → Machine.exec (.kick fn bytes val remote) s = .next { s with heldReqs := s.heldReqs ++ [.kick fn bytes val remote] })
      ∧ (s.itbusy = false → s.kickHeld fn bytes val remote = false)
      ∧ (s.itbusy = true → (∃ off l, Instr.hostBar2Access fn off (.write l) ∈ s.heldReqs) → s.kickHeld fn bytes val remote = true)
      ∧ (s.kickHeld fn bytes val remote = false → Goes (.kick fn bytes val remote) s fun t => Quiet s t
        ∧ (if bytes ≠ 8 then refused t 8 0
           else if (s.func fn).slotCount ≤ rel then refused t 1 rel
           else (t.slot slot).kick = ((s.slot slot).kick + 1) % 2 ^ 32 ∧
             if (s.slot slot).code ≠ 0 then refused t 1 rel
             else
               let reported (st detail : Nat) : Prop := refused t st rel ∧ (Image.compaddr image ≠ 0 → Output.hostWrite (Image.compaddr image) (word st detail) ∈ t.out)
                 ∧ (bitAt (Image.gflags image) 0 = true → Output.msix fn (Image.msixvec image) ∈ t.out)
               let runs (m : Mem) : Prop := match Image.check m with
                 | some f => reported 4 (f.code % 256)
                 | none =>
                   if 16 ≤ (s.replays.filter fun e => e.2.slot == slot).length then reported 7 0
                   else t.func fn = s.func fn ∧ t.kickCount = (s.kickCount + 1) % 2 ^ 32 ∧ t.nextReplay = s.nextReplay + 1
                     ∧ if (Image.nodes m).all (·.handler) then t.replays = s.replays ∧ (Image.compaddr m ≠ 0 → Output.hostWrite (Image.compaddr m) (word 0 0) ∈ t.out)
                         ∧ (bitAt (Image.gflags m) 0 = true → Output.msix fn (Image.msixvec m) ∈ t.out)
                       else ∃ r, t.replay? s.nextReplay = some r ∧ r.fn = fn ∧ r.slot = slot ∧ r.kick = ((s.slot slot).kick + 1) % 2 ^ 32 ∧ r.image = m
                         ∧ ∀ k, startsAtOnce m k = true → k ∈ r.started ∧ ∃ e ∈ t.tasks, e.2.replay = some s.nextReplay ∧ e.2.node = k
               (ptab = 0 → runs image) ∧ (2 ^ 52 ≤ ptab ∨ ptab ≠ 0 ∧ patchTable s fn ptab remote = none → reported 2 0)
                 ∧ ∀ tab, ptab ≠ 0 → ptab < 2 ^ 52 → patchTable s fn ptab remote = some tab →
                     (Image.applyPatches image tab = none → reported 3 0) ∧ ∀ m, Image.applyPatches image tab = some m → runs m)))
  ∧ ∀ (image : Mem) (es : List (Nat × Nat × Nat)), es.length ≤ 1024 → (∀ e ∈ es, e.1 < 2 ^ 32 ∧ e.2.1 < 2 ^ 8 ∧ e.2.2 < 2 ^ 64) →
      let tab := leBytes 2 es.length ++ List.replicate 14 0 ++ es.flatMap fun e => leBytes 4 e.1 ++ leBytes 1 e.2.1 ++ [0, 0, 0] ++ leBytes 8 e.2.2
      let fits : Prop := ∀ e ∈ es, (∃ j, j < Image.patchcount image ∧ Image.patch image j = (e.1, e.2.1)) ∧ e.2.2 < 2 ^ (8 * e.2.1)
      (fits → Image.applyPatches image tab = some (es.foldl (fun m e => m.writeNum e.1 e.2.1 e.2.2) image)) ∧ (¬ fits → Image.applyPatches image tab = none)

/-- R44, R353, R355, R357: a cold reset leaves the state of State.reset, in recovery unless its image's signature holds under the fused key and it is not rolled back (what outlives it outside the device: log entry 69); a warm
reset boots the image that the last cold reset found, keeps slots, registers, queues and the table with its rewrite and loses contexts, local memories and caches, and with the future tables the futures of invocations to be answered, with every active task back before its blocks were placed (the rest as log
entry 68); a VF's function-level reset clears its own registers and drops its kicks that still wait, and its work goes on (log entry 104); the failure of a part is recorded, that of a C-die restarts the tasks on it, that of a link loses the requests on their way over it (log entry 103), and a task that a lost request touched restarts whole. As the model's own choice it rests on the log entries 67, 68, 69, 70, 103, 104, 113. -/
def Obligations.ResetsAndFailures : Prop :=
  (∀ (signed : Signature) (version : Nat) (s : State), Machine.exec (.coldReset signed version) s
      = .next { State.reset with inputs := s.inputs, out := s.out, draws := s.draws, accId := s.accId, flash := some (signed, version)
                                 recovery := !(signed.valid && signed.keyFused && decide (Config.rollbackCounter ≤ version)) })
  ∧ (∀ (s : State), Goes .warmReset s fun t =>
      t.ctxs = [] ∧ t.side = [] ∧ t.scratch = [] ∧ t.slotMem = [] ∧ t.bankMem = [] ∧ t.agenda = [] ∧ t.cur = none
      ∧ (∀ g, (t.grid g).leat = [] ∧ (t.grid g).icache = [] ∧ (t.grid g).clk = (s.grid g).clk) ∧ (∀ d, (t.cdie d).dcache = [] ∧ (t.cdie d).failed = (s.cdie d).failed)
      ∧ (∀ c, (t.cluster c).futures = [] ∧ (t.cluster c).target = (s.cluster c).target) ∧ (∀ m, (t.mdie m).turn = 0)
      ∧ t.slots = s.slots ∧ t.kickCount = s.kickCount ∧ t.queues = s.queues ∧ t.replays = s.replays ∧ t.retained = s.retained
      ∧ t.dsplit = s.dsplit ∧ t.itable = s.itable ∧ t.itmap = s.itmap ∧ t.itgen = s.itgen ∧ t.itbusy = s.itbusy ∧ t.ranges = s.ranges ∧ t.plim = s.plim ∧ t.hostWins = s.hostWins
      ∧ (∀ f, (t.func f).slotBase = (s.func f).slotBase ∧ (t.func f).slotCount = (s.func f).slotCount ∧ (t.func f).ptroot = (s.func f).ptroot ∧ (t.func f).scrCount = (s.func f).scrCount)
      ∧ ((∀ d, (s.cdie d).dcache = []) → t.home = s.home)
      ∧ (∀ i ∈ t.invoked, i.h.fut = none) ∧ t.flash = s.flash
      ∧ (t.recovery = true ↔ ∃ b v, s.flash = some (b, v) ∧ ¬ (b.valid = true ∧ b.keyFused = true ∧ Config.rollbackCounter ≤ v))
      ∧ ∀ e ∈ s.tasks, e.2.active = true → e.2.finished = false → Afresh t e.1)
  ∧ (∀ (v : Nat) (s : State), v < 16 → Goes (.vfFlr v) s fun t => t.func (1 + v) = { s.func (1 + v) with winbase := 0, upSlot := 0, commit := none }
      ∧ (∀ w, w ≠ 1 + v → t.func w = s.func w) ∧ t.inputs = s.inputs
      ∧ t.heldReqs = s.heldReqs.filter (fun i => match i with | .kick f _ _ _ => f != 1 + v | _ => true)
      ∧ t.replays = s.replays ∧ t.tasks = s.tasks ∧ t.queues = s.queues ∧ Quiet s t)
  ∧ (∀ (k : Nat) (tk : Task) (s : State), s.lostTasks = [k] → s.task? k = some tk → tk.finished = false → Afresh s.restartLost k ∧ s.restartLost.lostTasks = [])
  ∧ ∀ (a b : Nat) (s : State),
      (Goes (.partFailure (.cdie a)) s fun t => (t.cdie a).failed = true ∧ (t.cdie a).dcache = [] ∧ ∀ e ∈ s.tasks, e.2.finished = false → a ∈ e.2.dies → Afresh t e.1)
      ∧ (Goes (.partFailure (.link a b)) s fun t => (a, b) ∈ t.badLinks ∧ Quiet s t ∧ t.tasks = s.tasks ∧ t.blocks = s.blocks
          ∧ (∀ c x due line h, s.ctx? c = some x → dieOf (gridOf c) = a → x.stage = .arming due none line → s.homeOf (64 * line) = some h → mdieOf h = b → t.ctx? c = some { x with stage := .lost (due - 1 + 2 ^ 20) line })
          ∧ ∀ e ∈ s.grids, dieOf e.1 = a → ∀ o ∈ e.2.leat, ∀ x ∈ o.beats, x.kind = 0 → (∃ h, s.homeOf x.target = some h ∧ mdieOf h = b) → x.crosses s e.1 o = true →
              ∃ g ∈ t.grids, g.1 = e.1 ∧ ∃ p ∈ g.2.leat, p.id = o.id ∧ { x with lost := true } ∈ p.beats)
      ∧ (if a < 12 then Goes (.partFailure (.ualPort a)) s fun t => a ∈ t.badPorts ∧ Quiet s t else Machine.exec (.partFailure (.ualPort a)) s = .next s)
      ∧ (Goes (.partFailure (.journal a)) s fun t => (t.mdie a).journalFailed = true ∧ Quiet s t)
      ∧ (Goes (.partFailure (.stack a)) s fun t => a ∈ t.badStacks ∧ Quiet s t)
      ∧ Machine.exec (.partFailure .reduction) s = .next { s with badReduction := true }

namespace Sys2Proof.Claims
open Sys2Proof Sys2Proof.Machine

/-! ### Records, bins and queues -/
/-- Bytes o to o + k − 1 of a value held little-endian. -/
def bytesOf (w o k : Nat) : Nat := w / 2 ^ (8 * o) % 2 ^ (8 * k)
/-- A block of M-die m is formed of the records, under the number s.nextBlock, with m's launch count as its serial (R14, R36). -/
def Formed (s t : State) (m : Nat) (recs : List BinRec) : Prop :=
  (∃ x, t.block? s.nextBlock = some x ∧ x.recs = recs.map (·.r) ∧ x.phase = .ready ∧ x.bin = m ∧ x.serial = m * 2 ^ 30 + (s.mdie m).launch
      ∧ ∀ r0, recs.head? = some r0 → x.slot = r0.slot ∧ x.node = r0.r.handler ∧ x.prio = r0.r.prio)
    ∧ t.nextBlock = s.nextBlock + 1 ∧ (t.mdie m).ready = (s.mdie m).ready ++ [s.nextBlock] ∧ (t.mdie m).launch = ((s.mdie m).launch + 1) % 2 ^ 30
/-- The records of a class; those accepted under an image since replaced are classes of their own (log entry 114). -/
def classRecs (x : MDie) (slot node prio : Nat) (under : Option (Nat × Node)) : List BinRec := match x.bin? slot node prio under with | some b => b.recs | none => []
/-- What R39 answers to a record that is 64 bytes and aligned: its status, and whether a retained entry gave it. -/
def arrivalStatus (s : State) (w : Nat) : Nat × Bool :=
  let src := bytesOf w 8 2 % 1024
  let seq := bytesOf w 10 6 + bytesOf w 7 1 / 16 * 2 ^ 48
  match s.retained.find? fun e => e.source == src && e.seq == seq with
  | some e => (e.status, true)
  | none =>
    (if bytesOf w 6 1 / 16 ≠ 0 ∨ bytesOf w 7 1 % 16 ≠ 0 ∨ bytesOf w 8 2 / 1024 ≠ 0 ∨ 11 < bytesOf w 6 1 then 4
     else match Tables.get? s.queues (bytesOf w 0 4 / 2 ^ 20) with
      | none => 2
      | some q =>
        if q.live = false ∨ q.gen ≠ bytesOf w 0 4 % 2 ^ 20 then 2
        else if bytesOf w 4 2 ≠ q.node then 3
        else if q.cap ≤ q.recs.length + q.used.length ∧ (q.spill = false ∨ s.ringFull q = true) then 1
        else 0, false)
/-- Queue q takes a record and becomes p (R37, R38): in the Pond, at its end, while it is there with no record in its ring and has room; else at a place of its ring in memory, whose 64 bytes are then the record's; where
it is swapped and its ring full, in the Pond, into which its records come back at once (log entry 88). -/
def Takes (s t : State) (q p : Queue) (r : Rec) : Prop :=
  if q.swapped = true ∧ s.ringFull q = true then p.swapped = false ∧ p.recs = q.recs ++ q.used.map (s.ringRec q) ++ [r] ∧ p.used = [] ∧ SameMem s t
  else if q.swapped = false ∧ q.recs.length < q.cap ∧ q.used = [] then p.recs = q.recs ++ [r] ∧ p.used = q.used ∧ SameMem s t
  else p.recs = q.recs ∧ ∃ k, p.used = q.used ++ [k] ∧ ∀ a, s.homeOf (q.placePa k) = some a → t.home.readN a 64 = recBytes r
/-- A class of a bin has room for a record (R14). -/
def hasRoom (s : State) (q : Queue) (prio : Nat) : Prop := (s.mdie q.home).classCount q.slot q.node prio q.old < 65536
/-- A swapped queue with records fits the area again (R38), with so many bytes of it left aside; it is owed its place by now; it is owed it longest on its M-die. -/
def fitsAgain (s : State) (q : Queue) (aside : Nat) : Prop := q.swapped = true ∧ q.used ≠ [] ∧ s.areaUsed q.home + aside + 64 * min q.used.length q.cap ≤ 2 ^ 25
def owedPlace (s : State) (q : Queue) : Prop := q.swapped = true ∧ ∃ u, q.wanted = some u ∧ u ≤ (s.mdie q.home).clk
def owedLongest (s : State) (i : Nat) (q : Queue) : Prop :=
  (i, q) ∈ s.queuesAt q.home ∧ owedPlace s q ∧ ∀ e ∈ s.queuesAt q.home, owedPlace s e.2 → e = (i, q) ∨ s.owedFor e.2 < s.owedFor q
/-- Queue i of M-die m can leave the area for its ring, and has been idle longest of those that can (R38, R210). -/
def canLeave (s : State) (q : Queue) : Prop := q.spill = true ∧ q.swapped = false ∧ q.recs.length + q.used.length ≤ 64 * (q.pages - (s.badRing q).length) ∧ q.ring.any s.heldPa = false
def idleLongest (s : State) (m i : Nat) (q : Queue) : Prop :=
  (i, q) ∈ s.queuesAt m ∧ canLeave s q ∧ ∀ e ∈ s.queuesAt m, canLeave s e.2 → e = (i, q) ∨ q.lastUse < e.2.lastUse
/-- The record a queue takes from those bytes (R35, R39 step 6). -/
def arrivalRec (q : Queue) (w : Nat) (args : List Byte) : Rec :=
  { qidx := bytesOf w 0 4 / 2 ^ 20, qgen := bytesOf w 0 4 % 2 ^ 20, handler := q.node, prio := min (bytesOf w 6 1) q.maxPrio, source := bytesOf w 8 2
    seq := bytesOf w 10 6 + bytesOf w 7 1 / 16 * 2 ^ 48, args := args }
/-- An invocation has its answer (R42, R46): it is no longer owed one, and its future, if pending and its block not retired, is resolved or has failed with the status. -/
def Answered (s t : State) (i : Invoked) (st : Nat) : Prop :=
  t.invoked = s.invoked.filter (fun e => e != i) ∧ ∀ h e, i.h.fut = some h → s.future? h = some e → e.state = 1 →
    (∀ b, e.owner = some b → ∃ x, s.block? b = some x ∧ x.phase ≠ .retired) →
    t.future? h = some (if st = 0 then { e with state := 2, value := 0, cause := 0 }
      else { e with state := 3, value := BitVec.ofNat 64 st, cause := if st = 2 then 8 else if st = 7 then 9 else 6 })
/-- c lies in [f, t) modulo 2^30 (R43). -/
def launchIn (c f t : Nat) : Bool := decide ((c + 2 ^ 30 - f) % 2 ^ 30 < (t + 2 ^ 30 - f) % 2 ^ 30)
/-- What a write to a peer puts out: nothing when no UALink port works (R2, R42). -/
def overLink (s : State) (acc : Nat) (bs : List Byte) : List Output := if s.badPorts.length < 12 then [.linkWrite acc bs] else []
end Sys2Proof.Claims

/-- R14, R35 to R40: a record on its way joins its class; a handler class with a full block forms it at once, where R43 lets the M-die form one, and one whose timer runs out forms it of what it has, once every record of the
cycle has entered; a record that arrives from a peer is answered by the checks of R39 in their order and is queued where the answer is 0, in the Pond or in its ring in memory; a queue gives its bin the oldest record whose
class has room, the records of one source and class in the order of their sequence numbers; queues are swapped for room: the queue owed its place longest on an M-die is the one that room is made for, the M-die whose queue has waited longest makes it first, and that queue comes back before the others. A rewrite of the interleave table holds back a record whose queue's ring is out of reach (R210). As the model's own choice it rests on the log entries 48, 49, 80, 88, 106, 113, 114. -/
def Obligations.RecordsAndQueues : Prop :=
  (∀ (m : Nat) (r : BinRec) (rest : List BinRec) (s : State), (s.mdie m).inserts = r :: rest →
    let old := classRecs (s.mdie m) r.slot r.r.handler r.r.prio r.old
    let n := old ++ [r]
    let hdr := s.binNode r
    hdr.handler = true → 0 < hdr.ccount → (∀ e ∈ n, s.binNode e = hdr) →
    (n.length < hdr.ccount → Goes (.binInsert m) s fun t =>
      (t.mdie m).inserts = rest ∧ classRecs (t.mdie m) r.slot r.r.handler r.r.prio r.old = n ∧ t.blocks = s.blocks ∧ Quiet s t
        ∧ (old = [] → hdr.timer = 0 → t.agenda = s.agenda ++ [.event .binTimerExpiry]))
    ∧ (hdr.ccount ≤ n.length → s.mayForm m = true → Goes (.binInsert m) s fun t =>
      (t.mdie m).inserts = rest ∧ Formed s t m (n.take hdr.ccount) ∧ Quiet s t))
  ∧ (∀ (m t0 : Nat) (b : Bin) (r0 : BinRec) (s : State), s.dueBin = some (m, b) → b.recs.head? = some r0 → (s.binNode r0).handler = true →
      b.recs.length < (s.binNode r0).ccount → b.timer = some t0 → (s.binNode r0).timer ≠ 0xFFFFFFFF → t0 + (s.binNode r0).timer ≤ (s.mdie m).clk →
      Goes .binTimerExpiry s fun t => Formed s t m b.recs ∧ Quiet s t)
  ∧ (∀ (len off : Nat) (data : BitVec 512) (s : State), s.Inv →
      if len ≠ 64 ∨ off % 64 ≠ 0 then Machine.exec (.gnoutRecordArrival len off data) s = .next (sent s .linkError)
      else
        let w := data.toNat
        let st := arrivalStatus s w
        let i := bytesOf w 0 4 / 2 ^ 20
        (s.recHeld (leBytes 64 w) = true → Machine.exec (.gnoutRecordArrival len off data) s = .next { s with heldReqs := s.heldReqs ++ [.gnoutRecordArrival len off data] })
        ∧ (s.recHeld (leBytes 64 w) = true → s.itbusy = true ∧ st = (0, false))
        ∧ (s.recHeld (leBytes 64 w) = false → Goes (.gnoutRecordArrival len off data) s fun t => (∀ c, t.fileOf c = s.fileOf c)
          ∧ t.out = s.out ++ [.answer (bytesOf w 8 2 % 1024) (leBytes 7 (bytesOf w 10 6 + bytesOf w 7 1 / 16 * 2 ^ 48) ++ leBytes 1 st.1 ++ List.replicate 8 0)]
          ∧ (if st.2 then t.retained = s.retained ∧ t.queues = s.queues ∧ SameMem s t
             else (∃ e, t.retained = s.retained ++ [e] ∧ e.source = bytesOf w 8 2 % 1024 ∧ e.seq = bytesOf w 10 6 + bytesOf w 7 1 / 16 * 2 ^ 48 ∧ e.status = st.1)
               ∧ (st.1 ≠ 0 → t.queues = s.queues ∧ SameMem s t)
               ∧ (st.1 = 0 → ∀ q, Tables.get? s.queues i = some q → ∃ p, Tables.get? t.queues i = some p ∧ Takes s t q p (arrivalRec q w (leBytes 48 (w / 2 ^ 128)))))))
  ∧ (∀ (i : Nat) (q : Queue) (r : Rec × Option Nat) (pre post : List (Nat × Queue)) (s : State), s.queues = pre ++ (i, q) :: post → (∀ e ∈ pre, s.leaves e.2 = none) → s.leaves q = some r →
      r ∈ s.heldRecs q ∧ hasRoom s q r.1.prio ∧ (∀ e ∈ s.heldRecs q, e.1.source = r.1.source → e.1.prio = r.1.prio → r.1.seq ≤ e.1.seq)
        ∧ Goes .queueToBin s fun t => Tables.get? t.queues i = some (s.refill { q.without r with lastUse := (s.mdie q.home).clk })
          ∧ (t.mdie q.home).inserts = (s.mdie q.home).inserts ++ [{ r := r.1, slot := q.slot, old := q.old }] ∧ Quiet s t)
  ∧ (∀ (q : Queue) (s : State), q.swapped = false → s.leaves q = none → ∀ e ∈ s.heldRecs q, ¬ hasRoom s q e.1.prio)
  ∧ (∀ (i : Nat) (q : Queue) (s : State), owedLongest s i q → s.swapNeed q.home = 64 * min q.used.length q.cap ∧ s.waitingFor q.home = s.owedFor q + 1)
  ∧ (∀ (m : Nat) (s : State), (∀ e ∈ s.queuesAt m, ¬ owedPlace s e.2) → s.swapNeed m = 0 ∧ s.waitingFor m = 0)
  ∧ (∀ (m i : Nat) (q : Queue) (s : State), m < 4 → 2 ^ 25 < s.areaUsed m + s.swapNeed m → idleLongest s m i q →
      (∀ k, k < 4 → k ≠ m → s.areaUsed k + s.swapNeed k ≤ 2 ^ 25 ∨ (∀ e ∈ s.queuesAt k, ¬ canLeave s e.2) ∨ s.waitingFor k < s.waitingFor m ∨ s.waitingFor k = s.waitingFor m ∧ m < k) →
      Goes .queueSwapOut s fun t => (∀ c, t.fileOf c = s.fileOf c) ∧ SameMem s { t with home := s.home } ∧ (∀ k, k ≠ i → Tables.get? t.queues k = Tables.get? s.queues k)
        ∧ ∃ p l, Tables.get? t.queues i = some p ∧ p.swapped = true ∧ p.recs = [] ∧ p.used = l ++ q.used ∧ l.length = q.recs.length)
  ∧ ∀ (i : Nat) (q : Queue) (s : State),
      (owedLongest s i q ∧ q.home < 4 ∧ fitsAgain s q 0 ∧ (∀ e ∈ s.queues, e.2.home ≠ q.home → owedPlace s e.2 → fitsAgain s e.2 0 → s.owedFor e.2 < s.owedFor q)
        ∨ (∀ e ∈ s.queues, owedPlace s e.2 → ¬ fitsAgain s e.2 0) ∧ (i, q) ∈ s.queues ∧ fitsAgain s q (s.swapNeed q.home) ∧ ∀ e ∈ s.queues, fitsAgain s e.2 (s.swapNeed e.2.home) → e = (i, q)) →
      Machine.exec .queueSwapIn s = .next { s with queues := Tables.set i (s.refill { q with swapped := false, wanted := none, lastUse := (s.mdie q.home).clk }) s.queues }

/-- R42, R43, R46, R48: a released invocation is sent once pacing allows (R43), where it is for this device once its queue's ring is in reach (R210), again after 2^20 cycles without an answer, and fails with status 5 after 2^30 or where no such device is in the pod; an answer settles its
future; a retire write drops the retained entries that it covers and is acknowledged, is sent again every 2^20 cycles until the device it went to acknowledges it; a retained entry goes after 2^34 cycles. As the model's own choice it rests on the log entries 50, 80, 113. -/
def Obligations.InvocationsEnd : Prop :=
  (∀ (i : Invoked) (s : State), s.invoked.find? s.sendable = some i → ∀ acc, i.h.acc = some acc →
    if acc = s.accId then Goes .invokeSend s fun t => t.invoked = s.invoked.filter (fun e => e != i && e != { i with sent := some s.xclk, first := s.xclk, waits := false }) ∧ ∀ c, t.fileOf c = s.fileOf c
    else if Config.inPod acc = true then
      Goes .invokeSend s fun t => t.out = s.out ++ overLink s acc (recBytes i.h.r) ∧ { i with sent := some s.xclk, first := s.xclk, waits := false } ∈ t.invoked ∧ Quiet s t
    else Goes .invokeSend s fun t => Answered s t i 5 ∧ Quiet s t)
  ∧ (∀ (data : BitVec 128) (i : Invoked) (s : State), data.toNat / 2 ^ 64 = 0 → data.toNat / 2 ^ 56 ≤ 4 →
      (s.invoked.find? fun e => e.sent.isSome && e.h.r.seq == data.toNat % 2 ^ 56) = some i →
      Goes (.invokeAnswer data) s fun t => Answered s t i (data.toNat / 2 ^ 56) ∧ Quiet s t)
  ∧ (∀ (i : Invoked) (s : State), (s.invoked.find? fun e => match e.sent with | some t => decide (t + 2 ^ 20 ≤ s.xclk) | none => false) = some i →
      Machine.exec .invokeResend s = .next { s with invoked := s.invoked.map (fun e => if e = i then { i with sent := some s.xclk } else e)
                                                    out := s.out ++ overLink s (i.h.acc.getD 0) (recBytes i.h.r) })
  ∧ (∀ (i : Invoked) (s : State), (s.invoked.find? fun e => e.sent.isSome && decide (e.first + 2 ^ 30 ≤ s.xclk)) = some i →
      Goes .invokeGiveUp s fun t => Answered s t i 5 ∧ Quiet s t)
  ∧ (∀ (data : BitVec 128) (s : State),
      let w := data.toNat
      if bytesOf w 0 2 < 1024 ∧ bytesOf w 2 1 < 4 ∧ bytesOf w 3 4 < 2 ^ 30 ∧ bytesOf w 7 4 < 2 ^ 30 ∧ bytesOf w 11 5 = 0 then
        Machine.exec (.retireWrite data) s = .next { s with
          retained := s.retained.filter fun e => !(e.source == bytesOf w 0 2 && e.seq / 2 ^ 50 % 4 == bytesOf w 2 1 && launchIn (e.seq / 2 ^ 20 % 2 ^ 30) (bytesOf w 3 4) (bytesOf w 7 4))
          out := s.out ++ [.answer (bytesOf w 0 2) (leBytes 4 (bytesOf w 7 4) ++ leBytes 1 (bytesOf w 2 1) ++ [0, 0, 0x10] ++ List.replicate 8 0)] }
      else Machine.exec (.retireWrite data) s = .next (sent s .linkError))
  ∧ (∀ (data : AckWord) (r : RetireW) (s : State),
      let w := data.word.toNat
      bytesOf w 7 1 = 0x10 → bytesOf w 5 2 = 0 → bytesOf w 8 8 = 0 →
      (s.retireWrites.find? fun e => e.acc == data.source && e.m == bytesOf w 4 1 && e.t == bytesOf w 0 4) = some r →
      Machine.exec (.retireAck data) s = .next { s with retireWrites := s.retireWrites.erase r })
  ∧ (∀ (r : RetireW) (s : State), (s.retireWrites.find? fun w => decide (w.sent + 2 ^ 20 ≤ s.xclk)) = some r →
      Machine.exec .retireWriteResend s = .next { s with retireWrites := s.retireWrites.map (fun e => if e = r then { r with sent := s.xclk } else e)
                                                         out := s.out ++ overLink s r.acc (leBytes 2 s.accId ++ leBytes 1 r.m ++ leBytes 4 r.f ++ leBytes 4 r.t ++ leBytes 5 0) })
  ∧ ∀ (e : Retained) (s : State), (s.retained.find? fun e => decide (e.at_ + 2 ^ 34 ≤ (s.mdie e.m).clk)) = some e →
      Machine.exec .retainedEntryExpiry s = .next { s with retained := s.retained.erase e }

namespace Sys2Proof.Claims
open Sys2Proof Sys2Proof.Machine

/-! ### Placement and the ends of work -/
/-- The registers of a row context at its first issue (R62): block b, row k of rows, entry point and vectors of its node, the top of its spill stack; all else 0, but for the full masks. -/
def fresh (b k : Nat) (hdr : Node) (top : Nat) : RegFile :=
  { ({ blk := b, pc := BitVec.ofNat 64 hdr.entry } : Ctx).file with
    k := k, rowid := k % max 1 hdr.rows, bandid := k / max 1 hdr.rows, trapvec := BitVec.ofNat 64 hdr.trapv, emuvec := BitVec.ofNat 64 hdr.emuv
    v := tab 64 fun _ => tab 32 fun _ => 0, s := tab 160 fun i => if i = 159 then BitVec.ofNat 64 top else 0
    m := tab 15 fun i => if i = 0 then 0xFFFFFFFF#32 else 0, acc := tab 16 fun _ => tab 32 fun _ => 0 }
/-- The top of the spill stack of row k, in slot cid, of a block with this header placed at p (R13, R62): above the block's base on the row's grid come its record area, its side memory, and one
stack for each row before it on that grid and for itself. -/
def stackTop (hdr : Node) (p : Placement) (k cid : Nat) : Nat :=
  ((p.spans.find? fun sp => sp.g == gridOf cid).getD ⟨gridOf cid, 0, 0⟩).base + 64 * (hdr.ccount + 1) + hdr.side
    + hdr.spill * (((p.rows.take k).filter fun c => gridOf c == gridOf cid).length + 1)
/-- Block b is placed in cluster c at p (R60, R62): it is resident there, and each of its contexts stands at its first issue. -/
def Placed (t : State) (b c : Nat) (x : Block) (p : Placement) : Prop :=
  (∃ y, t.block? b = some y ∧ y.phase = .resident ∧ y.cluster = c ∧ y.rows = p.rows ∧ y.spans = p.spans)
    ∧ ∀ k cid, p.rows[k]? = some cid → (∀ j, k < j → p.rows[j]? ≠ some cid) → t.fileOf cid = some (fresh b k x.hdr (stackTop x.hdr p k cid))
/-- Resolved with a value (R278). -/
def Resolved (t : State) (h : Word32) (e : Future) (v : Word64) : Prop := t.future? h = some { e with state := 2, value := v, cause := 0 }
/-- Bytes of a line in one of the regions. -/
def inRegions (rs : List Region) (l : DLine) : Word64 := regionMask rs l
/-- Nothing of a flush would have to wait: no write-back to a peer is on its way or held back, and no die cache holds a line of a peer (R313) or one whose write-back is to be held (R210). -/
def homeOnly (s : State) : Prop := s.peerWrites = [] ∧ s.heldBacks = [] ∧ ∀ d k l, s.dline? d k = some l → l.kind = 0 ∧ ∀ i, i < 64 → s.heldPa (l.target + i) = false
/-- No other line of a die cache has its home in the 64 bytes from a on, in which line k of die d has its own. -/
def soleAt (s : State) (d k a : Nat) : Prop :=
  ∀ e k2 l2, s.dline? e k2 = some l2 → (e, k2) ≠ (d, k) → l2.kind = 0 → ∀ i, i < 64 → ∀ x, s.homeOf (l2.target + i) = some x → x + 64 ≤ a ∨ a + 64 ≤ x
/-- Between s and t byte i of line l, which is line k of die d, has left for its home (R217, R312, R313, R320): it stands at home, in a page that can be written (log entry 117) and where no other line has its home; under
a rewrite of the interleave table it is held back, to go home after it (R210); or it is on its way to a peer or the host. What is held back or on its way has a number below the mark that t sets, and is awaited. -/
def GoneHome (s t : State) (d k : Nat) (l : DLine) (i : Nat) : Prop :=
  (∀ a, l.kind = 0 → soleAt s d k a → (∀ j, j < 64 → s.homeOf (l.target + j) = some (a + j) ∧ s.memBad (a + j) = false ∧ s.heldPa (l.target + j) = false) → t.home.read (a + i) = l.bytes.getD i 0)
    ∧ (l.kind = 0 → (∀ j, j < 64 → s.heldPa (l.target + j) = true) →
        ∃ w ∈ t.heldBacks, s.peerNext ≤ w.1 ∧ w.1 < t.peerNext ∧ ∃ j, j ≤ i ∧ w.2.1 = l.target + j ∧ w.2.2[i - j]? = some (l.bytes.getD i 0))
    ∧ (l.kind ≠ 0 → (∃ n ∈ t.peerWrites, s.peerNext ≤ n ∧ n < t.peerNext)
        ∧ ∃ j bs, j ≤ i ∧ Output.memRequest l.kind (l.target + j) (.write bs) ∈ t.out ∧ bs[i - j]? = some (l.bytes.getD i 0))
/-- The dirty bytes that m picks of function fn's lines in these dies' caches have left for their homes. -/
def AllGoneHome (s t : State) (dies : List Nat) (fn : Nat) (m : DLine → Word64) : Prop :=
  s.Inv → ∀ d ∈ dies, ∀ k l, s.dline? d k = some l → l.fn = fn → l.bytes.length = 64 → l.dirty &&& ~~~l.valid = 0 → ∀ i, i < 64 → (l.dirty &&& m l).getLsbD i = true → GoneHome s t d k l i
/-- The completion action of task k (R313): on each die that ran a block of it no byte of its write regions is dirty any more but one that carries a forward tag (R314); the bytes of a task that forwards nothing have left for their homes, with those
forwarded to it; what is on its way is awaited. -/
def ActionMade (s t : State) (k : Nat) (tk : Task) : Prop :=
  let ran := tk.dies.filter fun d => !(s.cdie d).failed
  let own : Nat × Nat := (tk.node, tk.replay.getD 0)
  (∃ u, t.task? k = some u ∧ u.finishing = some t.peerNext)
    ∧ (∀ d ∈ ran, ∀ c l, t.dline? d c = some l → l.fn = tk.fn → l.dirty &&& inRegions tk.hdr.writeRegions l &&& ~~~l.tagged = 0)
    ∧ ((∀ w ∈ tk.hdr.writeRegions, w.isForward = false) →
        AllGoneHome s t ran tk.fn (fun l => inRegions tk.hdr.writeRegions l &&& ~~~(l.tagged &&& ~~~l.taggedBy own))
        ∧ (tk.replay.isSome = true → AllGoneHome s t s.liveDies tk.fn fun l => l.taggedBy own))
/-- M-die m may make an offer in this cycle (R56), and holds no block back for an overlap (R316). -/
def mayOffer (s : State) (m : Nat) : Prop := (s.mdie m).placed ≠ some (s.mdie m).clk ∧ ∀ e ∈ s.readyOrder m, s.arbitrated e.2.task = false
end Sys2Proof.Claims

/-- R55 to R58, R60, R62, R64, R216: an offer places the first block of the ready list that fits, whose rows then stand at their first issue, and passes the head over where it does not go; a block passed over for 2^22
cycles is anchored and closes the cluster with the most free contexts; an idle die asks the M-dies in turn (24 cycles a question: log entry 51) and takes what it is given; a grid gates itself after 65,536 idle cycles and warms up
for 2,048; a die with nothing outstanding and no other die's request stops its clock (log entry 52). Each completes, with its own effect, wherever the stated conditions on the state hold: dispatchOffer, anchorBlock, stealRequest, stealAnswer,
gridGate, wakeWarmupEnd, dieGate. With nothing on the ready list, no block due to be anchored or no cluster left for one, no die idle for long enough, no answer due, no grid idle for long enough or at the end of its warm-up, and a die with something outstanding, its event changes nothing; an offer of blocks that overlap
arbitration holds back (R316, R321) is not stated here. As the model's own choice it rests on the log entries 51, 52, 80. -/
def Obligations.PlacementEvents : Prop :=
  (∀ (m b c : Nat) (x : Block) (p : Placement) (s : State), mayOffer s m → s.choose m (s.readyOrder m) = some (b, x, c, some p) → s.block? b = some x →
    Goes (.dispatchOffer m) s fun t => Placed t b c x p ∧ b ∉ (t.mdie x.bin).ready ∧ (t.mdie m).placed = some (s.mdie m).clk ∧ (t.mdie m).turn = ((s.mdie m).turn + 1) % 2)
  ∧ (∀ (m b c : Nat) (x : Block) (p : Placement) (rest : List (Nat × Block)) (s : State), mayOffer s m → s.readyOrder m = (b, x) :: rest → x.phase ≠ .saved → (s.mdie m).anchor ≠ some b →
      s.bestCluster (2 * m + (s.mdie m).turn % 2) b x none = some (c, some p) → s.choose m (s.readyOrder m) = some (b, x, c, some p))
  ∧ (∀ (m : Nat) (s : State), (s.mdie m).placed = some (s.mdie m).clk ∨ s.readyOrder m = [] → Machine.exec (.dispatchOffer m) s = .next s)
  ∧ (∀ (m b : Nat) (x : Block) (s : State), mayOffer s m → (s.readyOrder m).head? = some (b, x) → s.choose m (s.readyOrder m) = none →
      Goes (.dispatchOffer m) s fun t => t.block? b = (s.block? b).map (fun y => { y with passedFrom := some (y.passedFrom.getD (s.mdie m).clk) }) ∧ (∀ k, k ≠ b → t.block? k = s.block? k) ∧ Quiet s t)
  ∧ (∀ (m b t0 : Nat) (x : Block) (s : State), (s.mdie m).anchor = none → (b, x) ∈ s.readyOrder m → x.passedFrom = some t0 → t0 + 2 ^ 22 ≤ (s.mdie m).clk →
      (∀ e ∈ s.readyOrder m, ∀ u, e.2.passedFrom = some u → e = (b, x) ∨ t0 < u) →
      (∃ c, c / 4 = m ∧ (s.cdie (c / 2)).failed = false ∧ (s.cluster c).closed = none) →
      Goes (.anchorBlock m) s fun t => (t.mdie m).anchor = some b ∧ Quiet s t ∧ ∃ c, c / 4 = m ∧ (t.cluster c).closed = some m
        ∧ ∀ e, e / 4 = m → (s.cdie (e / 2)).failed = false → (s.cluster e).closed = none → s.freeContexts e ≤ s.freeContexts c)
  ∧ (∀ (m : Nat) (s : State), ((s.mdie m).anchor ≠ none ∨ (∀ c, c / 4 = m → (s.cdie (c / 2)).failed = true ∨ (s.cluster c).closed ≠ none) ∨ ∀ e ∈ s.readyOrder m, ∀ u, e.2.passedFrom = some u → (s.mdie m).clk < u + 2 ^ 22) → Machine.exec (.anchorBlock m) s = .next s)
  ∧ (∀ (d : Nat) (s : State), ((s.cdie d).steal ≠ none ∨ (s.cdie d).idleCount < 4096) → Machine.exec (.stealRequest d) s = .next s)
  ∧ (∀ (d : Nat) (s : State), (s.cdie d).steal = none → 4096 ≤ (s.cdie d).idleCount →
      Goes (.stealRequest d) s fun t => t.cdie d = { s.cdie d with idleCount := 0, steal := some { k := 1, due := (s.cdie d).clk + 24 } } ∧ Quiet s t)
  ∧ (∀ (d : Nat) (s : State), (∀ st, (s.cdie d).steal = some st → (s.cdie d).clk < st.due) → Machine.exec (.stealAnswer d) s = .next s)
  ∧ (∀ (d : Nat) (st : Steal) (s : State), (s.cdie d).steal = some st → st.due ≤ (s.cdie d).clk →
      let m := (d / 2 + st.k) % 4
      ((∀ e ∈ s.readyOrder m, s.bestCluster d e.1 e.2 none = none) → Goes (.stealAnswer d) s fun t =>
        t.cdie d = { s.cdie d with steal := if st.k < 3 then some { k := st.k + 1, due := (s.cdie d).clk + 24 } else none } ∧ t.blocks = s.blocks ∧ Quiet s t)
      ∧ ∀ b x rest c p, s.readyOrder m = (b, x) :: rest → (s.mdie m).anchor ≠ some b → x.phase = .ready → s.arbitrated x.task = false → s.bestCluster d b x none = some (c, some p) → s.block? b = some x →
        Goes (.stealAnswer d) s fun t => Placed t b c x p ∧ (t.cdie d).steal = none ∧ b ∉ (t.mdie x.bin).ready)
  ∧ (∀ (g : Nat) (x : Grid) (s : State), (s.grids.find? fun e => !e.2.gated && decide (65536 ≤ e.2.idle) && (!(s.ctxs.any fun c => gridOf c.1 == e.1) && (s.grid e.1).leat.isEmpty) && e.2.fills.isEmpty && !s.isTarget e.1) = some (g, x) →
      Goes .gridGate s fun t => t.grid g = { x with gated := true, idle := 0, tempValid := false, retired := x.retired || x.retireAtIdle } ∧ (∀ e, e ≠ g → t.grid e = s.grid e) ∧ Quiet s t)
  ∧ (∀ (s : State), (∀ e ∈ s.grids, e.2.gated = true ∨ e.2.idle < 65536 ∨ (∃ c ∈ s.ctxs, gridOf c.1 = e.1) ∨ (s.grid e.1).leat ≠ [] ∨ e.2.fills ≠ [] ∨ s.isTarget e.1 = true) → Machine.exec .gridGate s = .next s)
  ∧ (∀ (s : State), (∀ e ∈ s.grids, e.2.warm ≠ 1) → Machine.exec .wakeWarmupEnd s = .next s)
  ∧ (∀ (g : Nat) (x : Grid) (s : State), (s.grids.find? fun e => e.2.warm == 1) = some (g, x) →
      Goes .wakeWarmupEnd s fun t => t.grid g = { x with warm := 0, winStart := x.clk, winReady := 0 } ∧ (∀ e, e ≠ g → t.grid e = s.grid e) ∧ Quiet s t)
  ∧ ∀ (d : Nat) (s : State),
      ((∀ e ∈ s.ctxs, dieOf (gridOf e.1) ≠ d) → (∀ e ∈ s.grids, dieOf e.1 = d → e.2.leat = [] ∧ e.2.fills = []) → (s.cdie d).walks = [] → (s.cluster (2 * d)).walkQueue = [] →
          (s.cluster (2 * d + 1)).walkQueue = [] → (s.cdie d).steal = none → s.peerWrites = [] → s.heldBacks = [] →
        Goes (.dieGate (.c d)) s fun t => t.cdie d = { s.cdie d with gated := true } ∧ Quiet s t)
      ∧ ((s.mdie d).inserts = [] → (s.mdie d).bins = [] → (s.mdie d).ready = [] → (∀ e ∈ s.queues, e.2.home = d → e.2.recs = [] ∧ e.2.used = []) → (∀ e ∈ s.grids, e.2.leat = [] ∧ e.2.fills = []) →
          (∀ e ∈ s.cdies, e.2.walks = [] ∧ e.2.steal = none) → (∀ e ∈ s.ctxs, ∀ due line, e.2.stage ≠ .arming due none line) → (∀ e ∈ s.blocks, e.2.stealing = none ∧ e.2.takers = []) →
          Goes (.dieGate (.m d)) s fun t => t.mdie d = { s.mdie d with gated := true } ∧ Quiet s t)
      ∧ (s.invoked = [] → s.retireWrites = [] → s.peerWrites = [] → (∀ e ∈ s.grids, e.2.leat = []) → Machine.exec (.dieGate .x) s = .next { s with xgated := true })
      ∧ ∀ e ∈ [(Die.c d, s.cdieBusy d), (.m d, s.mdieBusy d), (.x, s.xdieBusy)], e.2 = true → Machine.exec (.dieGate e.1) s = .next s

/-- R12, R23, R33, R34, R41, R279, R280, R312 to R314, R318 to R320, R346, R347: a task's start on a die first sends home what the other dies hold forwarded of its regions, and once that is acknowledged drops the clean bytes that
it reads, with the lines of code in them (R91), and lets its rows go; the dirty bytes of a region closed by rdone leave its die's cache for their homes, and once they are acknowledged its futures resolve; a block that may retire leaves nothing behind; the last of its task,
like a task that still owes it, begins the completion action, after which no die that ran the task holds a dirty byte of its write regions but a forwarded one: the bytes stand at home, or are held back or on their way to a peer and awaited; once they are acknowledged the task's completion resolves its future and releases its
records, and that of a handler's task forgets the task and frees its future; every node whose predecessors are over starts; a replay that is over sends home what it still holds forwarded, and then writes its completion word. Each completes, with its own effect, wherever the stated
conditions on the state hold: taskStartAction, rdoneFlush, rdoneFlushDone, blockRetire, taskComplete, successorStart, replayComplete. As the model's own choice it rests on the log entries 45, 46, 47, 78, 80, 87, 89, 113, 117. -/
def Obligations.WorkEnds : Prop :=
  (∀ (task d : Nat) (tk : Task) (s : State), (s.ctxs.any fun e => e.2.held && dieOf (gridOf e.1) == d && (s.blockOf e.2).task == task) = true → s.task? task = some tk →
    let mark := s.startMark task d
    (∀ m, mark = some m → (∃ w ∈ s.peerWrites, w < m) ∨ (∃ w ∈ s.heldBacks, w.1 < m) → Machine.exec (.taskStartAction task d) s = .next s)
    ∧ (mark = none → Goes (.taskStartAction task d) s fun t => (∃ u, t.task? task = some u ∧ u.active = true ∧ (d ∈ u.started ∨ (d, t.peerNext) ∈ u.starting)) ∧ (∀ c, t.fileOf c = s.fileOf c)
        ∧ (∀ e ∈ s.liveDies, e ≠ d → ∀ k l, t.dline? e k = some l → l.fn = tk.fn → l.dirty &&& inRegions tk.hdr.regions l &&& l.tagged = 0)
        ∧ AllGoneHome s t (s.liveDies.filter (· != d)) tk.fn fun l => inRegions tk.hdr.regions l &&& l.tagged)
    ∧ ((∃ m, mark = some m ∧ s.backTo m = true) ∨ mark = none ∧ homeOnly s →
      Goes (.taskStartAction task d) s fun t => (∃ u, t.task? task = some u ∧ d ∈ u.started ∧ u.active = true) ∧ (∀ c, t.fileOf c = s.fileOf c)
        ∧ (∀ c x, t.ctx? c = some x → dieOf (gridOf c) = d → (t.blockOf x).task = task → (t.blockOf x).phase = .resident → s.captured (gridOf c) = false → x.held = false)
        ∧ (∀ g, dieOf g = d → ∀ e ∈ (t.grid g).icache, e.1 / 2 ^ 46 = tk.fn → ∀ r ∈ tk.hdr.regions, r.isRead = true →
            64 * (e.1 % 2 ^ 46) + 64 ≤ r.base ∨ r.base + r.extent ≤ 64 * (e.1 % 2 ^ 46))
        ∧ ∀ k l, t.dline? d k = some l → l.fn = tk.fn → l.valid &&& inRegions (tk.hdr.regions.filter fun r => r.isRead && !r.isAtomic) l &&& ~~~l.dirty = 0))
  ∧ (∀ (w : Flush) (b : Block) (s : State), s.flushes.find? s.flushReady = some w → s.block? w.blk = some b →
      Goes .rdoneFlush s fun t => t.flushes = s.flushes.map (fun e => if e = w then { w with started := true, mark := t.peerNext } else e) ∧ (∀ c, t.fileOf c = s.fileOf c)
        ∧ (∀ k l, t.dline? (dieOf (gridOf w.cid)) k = some l → l.fn = b.fn → l.dirty &&& inRegions [b.hdr.regions.getD w.reg {}] l = 0)
        ∧ AllGoneHome s t [dieOf (gridOf w.cid)] b.fn (inRegions [b.hdr.regions.getD w.reg {}]))
  ∧ (∀ (w : Flush) (b : Block) (tk : Task) (s : State), (s.flushes.find? fun e => e.started && !e.done && s.backTo e.mark) = some w → s.block? w.blk = some b → s.task? b.task = some tk →
      Goes .rdoneFlushDone s fun t => t.task? b.task = some { tk with closing := tk.closing ++ [(w.reg, w.blk)] } ∧ Quiet s t
        ∧ ∀ p ∈ w.futs, (∀ q ∈ w.futs, q.1 = p.1 → q = p) → ∀ e, pendingIn s p.1 e → Resolved t p.1 e (BitVec.ofNat 64 p.2))
  ∧ (∀ (b : Nat) (x : Block) (s : State), s.dueRetire = some b → s.block? b = some x →
      Goes .blockRetire s fun t => (∀ c y, t.ctx? c = some y → y.blk ≠ b) ∧ (∃ y, t.block? b = some y ∧ y.phase = .retired ∧ y.spans = [] ∧ y.rows = [])
        ∧ (∀ g ∈ t.grids, ∀ n ∈ g.2.tiles, n.2.owner ≠ some b) ∧ (∀ c, (∀ e ∈ s.ctxs, e.1 = c → e.2.blk ≠ b) → t.fileOf c = s.fileOf c)
        ∧ ∀ tk, s.task? x.task = some tk → (∃ u, t.task? x.task = some u ∧ u.retired = tk.retired + 1)
          ∧ (s.itbusy = false → { tk with retired := tk.retired + 1 }.owesAction = true → ActionMade s t x.task tk))
  ∧ (∀ (k : Nat) (tk : Task) (s : State), (s.tasks.find? fun e => s.taskDue e.1 e.2) = some (k, tk) → s.task? k = some tk → tk.owesAction = true →
      Goes .taskComplete s fun t => ActionMade s t k tk ∧ ∀ c, t.fileOf c = s.fileOf c)
  ∧ (∀ (k r : Nat) (tk : Task) (rp : Replay) (s : State), (s.tasks.find? fun e => s.taskDue e.1 e.2) = some (k, tk) → s.task? k = some tk → tk.owesAction = false →
      tk.replay = some r → s.replay? r = some rp →
      Goes .taskComplete s fun t => (∃ u, t.task? k = some u ∧ u.finished = true ∧ u.active = false) ∧ (∀ e ∈ t.blocks, e.2.task ≠ k) ∧ (∀ c, t.fileOf c = s.fileOf c)
        ∧ (tk.failed = none → (∃ m, tk.finishing = some m ∧ s.backTo m = true) ∧ (∃ q, t.replay? r = some q ∧ q.finished = rp.finished ++ [tk.node]) ∧ (∀ h ∈ t.journal, h.task ≠ k)
            ∧ (tk.hdr.succ ≠ [] → ∀ h e, tk.fut = some h → pendingIn s h e → e.owner = none → Resolved t h e 0)))
  ∧ (∀ (k : Nat) (tk : Task) (s : State), (s.tasks.find? fun e => s.taskDue e.1 e.2) = some (k, tk) → s.task? k = some tk → tk.owesAction = false → tk.replay = none →
      Goes .taskComplete s fun t => t.task? k = none ∧ (∀ e ∈ t.blocks, e.2.task ≠ k) ∧ (∀ c, t.fileOf c = s.fileOf c) ∧ (∀ h, tk.fut = some h → t.future? h = none)
        ∧ (tk.failed = none → (∃ m, tk.finishing = some m ∧ s.backTo m = true) ∧ ∀ h ∈ t.journal, h.task ≠ k))
  ∧ (∀ (s : State), Goes .successorStart s fun t => (∀ c, t.fileOf c = s.fileOf c)
      ∧ ∀ e ∈ s.dueNodes, ∀ rp, s.replay? e.1 = some rp → ∃ q, t.replay? e.1 = some q ∧ e.2.1 ∈ q.started ∧ (e.2.2.seedcount = 0 → e.2.1 ∈ q.finished))
  ∧ (∀ (r : Nat) (rp : Replay) (s : State), (s.replays.find? fun e => s.replayDue e.1 e.2) = some (r, rp) → s.replay? r = some rp → rp.mark = none →
      Goes .replayComplete s fun t => (∀ q, t.replay? r = some q → q.mark = some t.peerNext) ∧ (∀ c, t.fileOf c = s.fileOf c)
        ∧ AllGoneHome s t s.liveDies rp.fn fun l => byteMask fun i => match Tables.get? l.tags i with | some p => p.2 == r && decide (p.1 < Image.ncount rp.image) | none => false)
  ∧ ∀ (r : Nat) (rp : Replay) (s : State), (s.replays.find? fun e => s.replayDue e.1 e.2) = some (r, rp) → s.replay? r = some rp → (rp.mark ≠ none ∨ homeOnly s) →
      Goes .replayComplete s fun t => t.replay? r = none ∧ (∀ e ∈ t.tasks, e.2.replay ≠ some r) ∧ (∀ c, t.fileOf c = s.fileOf c)
        ∧ (Image.compaddr rp.image ≠ 0 → Output.hostWrite (Image.compaddr rp.image) (leBytes 8 ((match rp.failed with | some f => f.1 * 2 ^ 56 + (if f.1 = 5 then f.2 % 256 else 0) * 2 ^ 48 | none => 0)
              + (rp.slot - (s.func rp.fn).slotBase) % 4096 * 2 ^ 32 + rp.kick % 2 ^ 32)) ∈ t.out)
        ∧ (bitAt (Image.gflags rp.image) 0 = true → Output.msix rp.fn (Image.msixvec rp.image) ∈ t.out)

namespace Sys2Proof.Claims
open Sys2Proof Sys2Proof.Machine

/-! ### Interrupted work -/
/-- The phase that R336 chooses for a block asked to yield, of R rows, D of them done, I instructions issued, hint H; the clock is its die's. -/
def yieldPhase (idem : Bool) (r d i h clk : Nat) : BPhase :=
  if 7 * r < 8 * d ∨ h ≠ 0 ∧ 7 * (h * r) < 8 * i then .draining (clk + 2 ^ 20)
  else if idem = true ∧ 4 * d < r ∧ (h = 0 ∨ 4 * i < h * r) then .stopping true
  else .stopping false
/-- Nothing of the block's contexts or of its engine work is in flight (R337, R338). -/
def atRest (s : State) (blk : Nat) : Prop :=
  (∀ e ∈ s.ctxs, e.2.blk = blk → (e.2.held = true ∨ e.2.done = true ∨ e.2.parked ≠ none) ∧ e.2.inflight = [] ∧ e.2.stores = [] ∧ e.2.pendingTrap = none ∧ e.2.bankOps = [] ∧ e.2.loop = none)
    ∧ ∀ e ∈ s.grids, ∀ o ∈ e.2.leat, o.blk ≠ blk
/-- No context of the block is left in its slot, and every other context keeps its registers. -/
def Left (s t : State) (blk : Nat) : Prop :=
  (∀ c y, t.ctx? c = some y → y.blk ≠ blk) ∧ ∀ c, (∀ e ∈ s.ctxs, e.1 = c → e.2.blk ≠ blk) → t.fileOf c = s.fileOf c
/-- A context may be held for a migration (R344): it is parked, or between chains with no loop in flight. -/
def mayHold (s : State) (cid : Nat) (x : Ctx) : Prop := x.parked ≠ none ∨ x.loop = none ∧ s.inChain cid = false
/-- Where a context's registers go when grid g moves to grid u (R345). -/
def movedTo (g u c : Nat) : Nat := if c / 128 = g then 128 * u + c % 128 else c
end Sys2Proof.Claims

/-- R57, R336 to R339: a block asked to yield drains, stops to restart or stops to be saved by its progress; one that has drained for 2^20 cycles is saved; a block flushed leaves its slots, its held records and its
futures and is ready again; a block saved leaves its slots with every register of its rows and every byte of its spans in its image; restored, each row has its registers again. R342 to R345, R350: a sensor at 95 °C raises a migration request, below 90 °C withdraws one not captured, at 105 °C holds the grid at class 0 until below 100 °C; from the request on contexts that can be held are held, and a grid all of whose contexts can is captured once it has a target; without
capture for 4,096 cycles the holds are lifted, and may be taken again 4,096 cycles later, but while they are lifted the grid is captured in a cycle in which all its contexts can be held; after 2^20 cycles the request has timed out; the move puts every context of the grid in the same place of the target with its registers. As the model's own choice it rests on the log entries 63, 64, 65, 66, 80, 118. -/
def Obligations.PreemptionAndMigration : Prop :=
  ((∀ (blk m : Nat) (b : Block) (s : State), m < 4 → s.preemptDue m = some blk → s.block? blk = some b → (∀ cid ∈ b.rows, s.inChain cid = false) →
      Goes (.preemptRequest blk) s fun t => Quiet s t ∧ ∃ y, t.block? blk = some y ∧ y.rows = b.rows
        ∧ y.phase = yieldPhase (b.hdr.idempotent && !b.rinit && !b.rdone && !(b.requests.any (·.init.isSome))) b.rows.length (b.rows.filter fun cid => (s.ctx cid).done).length b.count b.hdr.hint (s.cdie (b.cluster / 2)).clk)
    ∧ (∀ (k : Nat) (x : Block) (s : State), (s.blocks.find? fun e => match e.2.phase with | .draining u => decide (u ≤ (s.cdie (e.2.cluster / 2)).clk) | _ => false) = some (k, x) →
        Goes .drainTimeout s fun t => Quiet s t ∧ t.block? k = some { x with phase := .stopping false })
    ∧ (∀ (blk : Nat) (b : Block) (s : State), s.block? blk = some b → b.phase = .stopping true →
        (atRest s blk → Goes (.blockFlushRestart blk) s fun t => Left s t blk ∧ SameMem s t ∧ (∃ y, t.block? blk = some y ∧ y.phase = .ready ∧ y.recs = b.recs ∧ y.serial = b.serial ∧ y.formed = b.formed)
          ∧ (∀ h ∈ t.journal, h.blk ≠ blk) ∧ blk ∈ (t.mdie b.bin).ready)
        ∧ ((∃ e ∈ s.ctxs, e.2.blk = blk ∧ e.2.inflight ≠ []) → Goes (.blockFlushRestart blk) s fun t => Quiet s t ∧ t.blocks = s.blocks))
    ∧ (∀ (blk : Nat) (b : Block) (s : State), s.block? blk = some b → b.phase = .stopping false →
        (atRest s blk → (∃ m, b.mark = some m ∧ ((∃ w ∈ s.peerWrites, w < m) ∨ ∃ w ∈ s.heldBacks, w.1 < m)) → Goes (.blockSave blk) s fun t => Quiet s t ∧ t.blocks = s.blocks)
        ∧ (atRest s blk → (∃ m, b.mark = some m ∧ s.backTo m = true) ∨ b.mark = none ∧ homeOnly s →
          Goes (.blockSave blk) s fun t => Left s t blk ∧ blk ∈ (t.mdie b.bin).ready ∧ ∃ y l, t.block? blk = some y ∧ y.phase = .saved ∧ y.image = some l ∧ y.rows = b.rows ∧ y.spans = b.spans
          ∧ (∀ (k cid : Nat) (z : Ctx), b.rows[k]? = some cid → s.ctx? cid = some z → ∃ q : Ctx, l[k]? = some q ∧ q.file = z.file)
          ∧ (y.imageMem = b.spans.map fun sp => (sp.g, s.side.slice (2 ^ 21 * sp.g + sp.base) (sp.lim - sp.base)))
          ∧ (b.mark.isSome = true → s.wakes = [] → b.asked = [] → let bytes := (s.holdBlock blk).blockBytes blk b; ∃ a, y.savedAt = some (a, bytes.length) ∧ t.home.readN a bytes.length = bytes))
        ∧ ((∃ e ∈ s.ctxs, e.2.blk = blk ∧ e.2.inflight ≠ []) → Goes (.blockSave blk) s fun t => Quiet s t ∧ t.blocks = s.blocks))
    ∧ ∀ (blk : Nat) (b : Block) (l : List Ctx) (s : State), s.block? blk = some b → b.phase = .saved → b.image = some l →
        ((s.mdie b.bin).placed = some (s.mdie b.bin).clk → Machine.exec (.blockRestore blk) s = .next s) ∧ (mayOffer s b.bin → s.imageLost b = false → s.choose b.bin (s.readyOrder b.bin) = some (blk, b, b.cluster, none) →
        Goes (.blockRestore blk) s fun t => (∃ y, t.block? blk = some y ∧ y.phase = .resident ∧ y.rows = b.rows ∧ y.spans = b.spans) ∧ blk ∉ (t.mdie b.bin).ready
          ∧ ∀ (k cid : Nat) (q : Ctx), b.rows[k]? = some cid → l[k]? = some q → (∀ j, k < j → b.rows[j]? ≠ some cid) → t.fileOf cid = some q.file))
  ∧ ((∀ (g : Nat) (temp : BitVec 16) (s : State),
      ((s.grid g).gated = true ∨ s.recovery = true → Machine.exec (.sensorUpdate g temp) s = .next s)
      ∧ ((s.grid g).gated = false → s.recovery = false → Goes (.sensorUpdate g temp) s fun t => (t.grid g).temp = temp ∧ (t.grid g).tempValid = true ∧ (∀ c, t.fileOf c = s.fileOf c)
          ∧ (t.grid g).hot = (if 105 * 16 ≤ temp.toInt then true else if temp.toInt < 100 * 16 then false else (s.grid g).hot)
          ∧ ((s.grid g).migration = none → (t.grid g).migration.isSome = decide (95 * 16 ≤ temp.toInt))
          ∧ (∀ m, (s.grid g).migration = some m → (temp.toInt < 90 * 16 ∧ m.captured = false → (t.grid g).migration = none) ∧ (¬ (temp.toInt < 90 * 16 ∧ m.captured = false) → (t.grid g).migration.isSome = true))))
    ∧ (∀ (g u : Nat) (m : Migration) (s : State), (s.grid g).migration = some m → m.target = some u → m.captured = false → m.lifted = none →
        Goes (.migrationCapture g) s fun t => Quiet s t
          ∧ (∀ c x, s.ctx? c = some x → gridOf c = g → mayHold s c x → (t.ctx c).held = true)
          ∧ ∃ n, (t.grid g).migration = some n ∧ n.target = some u ∧ (n.captured = true ↔ ∀ e ∈ s.ctxs, gridOf e.1 = g → mayHold s e.1 e.2 ∧ e.2.loop = none))
    ∧ (∀ (g u c0 : Nat) (m : Migration) (s : State), (s.grid g).migration = some m → m.target = some u → m.captured = false → m.lifted = some c0 →
        let all : Prop := ∀ e ∈ s.ctxs, gridOf e.1 = g → mayHold s e.1 e.2 ∧ e.2.loop = none
        (¬ all → Machine.exec (.migrationCapture g) s = .next s)
        ∧ (all → Goes (.migrationCapture g) s fun t => Quiet s t ∧ (∀ c x, s.ctx? c = some x → gridOf c = g → (t.ctx c).held = true) ∧ ∃ n, (t.grid g).migration = some n ∧ n.target = some u ∧ n.captured = true))
    ∧ (∀ (g : Nat) (m : Migration) (s : State), (s.grid g).migration = some m → m.target = none → s.migrationTarget g = none → m.captured = false → m.lifted = none →
        Goes (.migrationCapture g) s fun t => Quiet s t ∧ (∀ c x, s.ctx? c = some x → gridOf c = g → mayHold s c x → (t.ctx c).held = true)
          ∧ ∃ n, (t.grid g).migration = some n ∧ n.target = none ∧ n.captured = false)
    ∧ (∀ (g : Nat) (x : Grid) (m : Migration) (s : State), (s.dueMigration fun y n => !n.captured && n.lifted.isNone && (match n.heldFrom with | some u => decide (u + 4096 ≤ y.clk) | none => false)) = some (g, x, m) →
        Goes .migrationHoldLift s fun t => (t.grid g).migration = some { m with lifted := some x.clk, heldFrom := none } ∧ Quiet s t
          ∧ ∀ c y, t.ctx? c = some y → gridOf c = g → s.mayRun c y = true → y.held = false)
    ∧ (∀ (g : Nat) (x : Grid) (m : Migration) (s : State), (s.dueMigration fun y n => !n.captured && (match n.lifted with | some u => decide (u + 4096 ≤ y.clk) | none => false)) = some (g, x, m) →
        Goes .migrationHoldRetake s fun t => t.grid g = { x with migration := some { m with lifted := none } } ∧ Quiet s t)
    ∧ (∀ (g : Nat) (x : Grid) (m : Migration) (s : State), (s.dueMigration fun y n => !n.captured && !n.timedOut && decide (n.since + 2 ^ 20 ≤ y.clk)) = some (g, x, m) →
        Goes .migrationCaptureTimeout s fun t => (t.grid g).migration = some { m with timedOut := true } ∧ Quiet s t)
    ∧ ∀ (g u : Nat) (m : Migration) (s : State), s.grids.find? (fun e => e.2.migration.isSome) = some (g, s.grid g) → (s.grid g).migration = some m → m.captured = true → m.target = some u → g ≠ u → (s.grid u).warm = 0 →
        (∀ e ∈ s.ctxs, gridOf e.1 = g → e.2.inflight = [] ∧ e.2.stores = [] ∧ e.2.pendingTrap = none ∧ e.2.bankOps = [] ∧ e.2.loop = none) → (∀ e ∈ s.ctxs, gridOf e.1 ≠ u) → (s.ctxs.map (·.1)).Nodup →
        Goes .migrationMoveDone s fun t => (∀ c, gridOf c ≠ u → t.fileOf (movedTo g u c) = s.fileOf c) ∧ (∀ c, gridOf c = g → t.fileOf c = none) ∧ (t.grid g).migration = none ∧ t.home = s.home ∧ t.scratch = s.scratch)

namespace Sys2Proof.Claims
open Sys2Proof Sys2Proof.Machine

/-! ### What lands, wakes and runs out by itself -/
/-- A result written to its register (R106); a latch belongs to the row, not to the context. -/
def landsIn (x : Ctx) (w : RegWrite) : Ctx :=
  match w with | .v n val mask => x.setV n val mask | .s n val => x.setS n val | .m n val => x.setM n val | .acc n val mask => x.setAcc n val mask | .latch _ _ => x
/-- What a context is parked on has come about (R283, R291, R294, R298). -/
def ripe (s : State) (obj : WaitObj) (cid : Nat) (x : Ctx) : Prop :=
  match obj with
  | .future h => x.parked = some (.future h) ∧ ∀ e, s.future? h = some e → e.state ≠ 1
  | .barrier b band k => x.blk = b ∧ (∀ d, band = some d → d = x.bandid) ∧ ∃ tok, x.parked = some (.barrier band k tok)
      ∧ 1 ≤ ((((s.blockOf x).barrier (barrierKey band k)).phase - tok : Word32)).toNat ∧ ((((s.blockOf x).barrier (barrierKey band k)).phase - tok : Word32)).toNat < 2 ^ 31
  | .range b => x.blk = b ∧ x.parked = some .range ∧ ∃ v, x.stage = .answered v
  | .watch c => c = cid ∧ x.wake.isSome = true ∧ ∃ u, x.parked = some (.watch u)
/-- A piece of an operand slot: its element bytes and its strip bytes (R142). -/
def slotChunk (s : State) (g slot at_ n strip k : Nat) : List Byte × List Byte :=
  (s.slotMem.readN (17408 * (32 * g + slot) + at_) n, s.slotMem.readN (17408 * (32 * g + slot) + 16384 + strip) k)
/-- Scales of a chunk (R267). -/
def scalesOf (t : Ty) : Nat := match t with | .t8 => 1 | .t4 => 2 | _ => 0
/-- The A chunk of step k of loop l (R267). -/
def chunkA (s : State) (cid : Nat) (l : Loop) : List Byte × List Byte :=
  let w := l.word.toNat
  let o := (w / 2 ^ 32 % 2 ^ 14 + 32 * (w / 2 ^ 8 % 256) * l.k + 512 * (cid / 4 % 32)) % 16384
  slotChunk s (cid / 128) (w / 2 ^ 46 % 32) o 32 (32 * (o / 512) + (if l.fmt = .t8 then o / 32 % 16 else o / 16 % 32)) (scalesOf l.fmt)
/-- The column chunk of cell j (R267): of the B slot at the top, of the popped cell below. -/
def chunkB (s : State) (cid : Nat) (l : Loop) (j : Nat) : List Byte × List Byte :=
  if l.top then
    let c := j + 32 * (l.grp + l.n)
    slotChunk s (cid / 128) ((l.word.toNat / 2 ^ 56 + l.k % (l.word.toNat / 2 ^ 51 % 32 + 1)) % 32) (32 * c) 32 (scalesOf l.fmt * c) (scalesOf l.fmt)
  else
    let cell := cellAt ((s.popReady cid).getD []) j
    (cell.data, leBytes (scalesOf l.fmt) cell.tag)
/-- How far a block of the task lies from another in the ring of blkid, and the blocks that a block may ask for a range (R298). -/
def ringTo (s : State) (x y : Block) : Nat := let n := max 1 (s.taskOf x).total; (y.blkid % n + n - x.blkid % n) % n
def Victim (s : State) (b : Nat) (x : Block) (v : Nat) (y : Block) : Prop :=
  (v, y) ∈ s.blocks ∧ v ≠ b ∧ y.task = x.task ∧ y.hasRange = true ∧ y.phase ≠ .retired ∧ 0 < ringTo s x y
/-- What a context has asked of the Wheel: for its shed loop, for its next instruction (R114, R117). -/
def requestsOf (x : Ctx) : List Request := (match x.loop with | some l => l.request.toList | none => []) ++ x.request.toList
/-- The first context of which p holds is x, in its slot. -/
def FirstCtx (s : State) (p : Nat → Ctx → Bool) (cid : Nat) (x : Ctx) : Prop := (s.ctxs.find? fun e => p e.1 e.2) = some (cid, x) ∧ s.ctx? cid = some x
/-- Free buckets of a cluster once its packet has collected and balanced (R113, R118). -/
def freeAfter (cl : Cluster) (returned : Nat) : Nat :=
  let n := min returned cl.held
  let all := cl.free + cl.held
  if cl.pos = 0 ∧ all < cl.target then cl.target - (cl.held - n) else cl.free + n - (all - cl.target)
end Sys2Proof.Claims

/-- R106, R132, R196, R326: a result lands in its register when its cycle comes, with its flags; the special-function pipe of a row takes an entry every four cycles, which lands 12 later; a trap is
taken once the row's results have landed. R107, R110, R125, R283, R292, R294, R298: a parked context wakes when what it waits for has come about, and no other does; a wake reaches the context
whose watch it names; an mwait, a yield and a re-poll run out; a held chain ends after 64 stalled cycles; a block whose range is empty asks the first of its victims, or answers its takers with all ones.
R113, R114, R116, R118, R122 to R124: a Wheel stop collects, balances and grants; a request that has waited 96 cycles becomes a reservation; a window below a quarter holds its grid at class 0, and one above ends that hold but on a grid that a thermal rule holds; a class change takes effect.
R117, R260, R267 to R269: a loop's step accumulates DotStep in each cell, a loop that its inputs alone keep waiting counts the cycles, sheds its buckets after 48 of them, stops with its buckets and the Baton handed back where its block is being saved (R112, R338), asks for them again where the block fails instead, and completes with its future, its row noting the cycle; a full register empties into its link.
Each completes, with its own effect, wherever the stated conditions on the state hold: resultLands, sfuAccept, takeTrap, parkWake, watchWakeArrival, mwaitTimeout, yieldExpiry, repoll, chainStallBreak, rangeSteal, wheelStop,
requestReservation, activityWindowEnd, classChangeEffect, loopStep, loopShed, loopComplete, linkHandoff. As the model's own choice it rests on the log entries 2, 30, 55, 80, 91, 108. -/
def Obligations.SchedulingAndLanding : Prop :=
  (∀ (cid id : Nat) (x : Ctx) (r : InFlight) (s : State), s.ctx? cid = some x → (x.inflight.find? fun e => e.id == id) = some r →
    if r.queued = true ∨ s.now cid < r.due then Machine.exec (.resultLands cid id) s = .next s
    else Goes (.resultLands cid id) s fun t => Spares s t cid ∧ (t.ctx cid).inflight = x.inflight.filter (fun e => e.id != id)
      ∧ t.fileOf cid = some { (r.writes.foldl landsIn x).file with fpflags := x.fpflags ||| r.flags } ∧ (t.grid (gridOf cid)).returned = (s.grid (gridOf cid)).returned + r.buckets
      ∧ ∀ n val, r.writes = [.latch n val] → (t.prow (rowOf cid)).latches = (s.prow (rowOf cid)).latches.setIfInBounds n val
          ∧ (t.prow (rowOf cid)).valid = (s.prow (rowOf cid)).valid ||| BitVec.ofNat 8 (2 ^ n))
  ∧ (∀ (p cid id : Nat) (rest : List (Nat × Nat)) (x : Ctx) (s : State), (s.prow p).sfuQueue = (cid, id) :: rest → s.ctx? cid = some x →
      ((∀ u, (s.prow p).sfuLast = some u → u + 4 ≤ s.now cid) → Goes (.sfuAccept p) s fun t => Quiet s t ∧ t.prow p = { s.prow p with sfuQueue := rest, sfuLast := some (s.now cid) }
        ∧ t.ctx? cid = some { x with inflight := x.inflight.map fun e => if e.id = id then { e with queued := false, due := s.now cid + 12 } else e })
      ∧ ∀ u, (s.prow p).sfuLast = some u → s.now cid < u + 4 → Machine.exec (.sfuAccept p) s = .next s)
  ∧ (∀ (cid : Nat) (x : Ctx) (tr : Trap) (s : State), s.ctx? cid = some x → x.pendingTrap = some tr →
      (x.inflight = [] → vectorOfCause x tr.cause ≠ 0 → Goes (.takeTrap cid) s fun t => t.fileOf cid = some (entered x tr (vectorOfCause x tr.cause)) ∧ (t.ctx cid).pendingTrap = none
        ∧ (t.prow (rowOf cid)).valid = 0 ∧ (t.prow (rowOf cid)).buf = none ∧ Spares s t cid)
      ∧ (x.inflight ≠ [] → Machine.exec (.takeTrap cid) s = .next s))
  ∧ (∀ (obj : WaitObj) (s : State), Goes (.parkWake obj) s fun t => Quiet s t ∧ ∀ cid x, s.ctx? cid = some x →
      (ripe s obj cid x → t.ctx? cid = some { x with parked := none }) ∧ (¬ ripe s obj cid x → t.ctx? cid = some x))
  ∧ (∀ (cid serial reason : Nat) (x : Ctx) (w : Watch) (s : State), (s.wakes.find? fun e => e.1 == cid && e.2.1 == serial) = some (cid, serial, reason) → s.ctx? cid = some x → x.watch = some w →
      Goes (.watchWakeArrival cid serial) s fun t => Quiet s t ∧ t.wakes = s.wakes.erase (cid, serial, reason)
        ∧ t.ctx? cid = some (if w.serial = serial then { x with watch := none, wake := some (if x.wake = some 0 ∨ reason = 0 then 0 else reason)
                                                                parked := match x.parked with | some (.watch _) => none | p => p } else x))
  ∧ (∀ (cid : Nat) (x : Ctx) (s : State),
      (FirstCtx s (fun c y => match y.parked with | some (.watch (some u)) => decide (u ≤ s.now c) | _ => false) cid x → Goes .mwaitTimeout s fun t => Quiet s t ∧ t.ctx? cid = some { x with parked := none })
      ∧ (FirstCtx s (fun c y => match y.yieldedUntil with | some u => decide (u ≤ s.now c) | none => false) cid x → Goes .yieldExpiry s fun t => Quiet s t ∧ t.ctx? cid = some { x with yieldedUntil := none })
      ∧ ∀ u, FirstCtx s (fun c y => match y.repollAt with | some u => decide (u < s.now c) | none => false) cid x → x.repollAt = some u →
          Goes .repoll s fun t => Quiet s t ∧ t.ctx? cid = some { x with repollAt := some (u + 256) })
  ∧ (∀ (p : Nat) (s : State), if (s.prow p).chainStall < 64 then Machine.exec (.chainStallBreak p) s = .next s
      else Goes (.chainStallBreak p) s fun t => Quiet s t ∧ t.prow p = { s.prow p with chain := none, chainStall := 0 })
  ∧ (∀ (b : Nat) (x : Block) (s : State), (s.blocks.find? fun e => e.2.mustSteal) = some (b, x) → s.block? b = some x →
      ((∀ v y, ¬ Victim s b x v y) → Goes .rangeSteal s fun t => Quiet s t ∧ t.block? b = some { x with takers := [], stealing := none }
        ∧ ∀ c ∈ x.takers, ∀ z, s.ctx? c = some z → (t.ctx c).stage = .answered 0xFFFFFFFFFFFFFFFF ∧ (t.ctx c).parked = none)
      ∧ ∀ v y, Victim s b x v y → (∀ w z, Victim s b x w z → (w, z) = (v, y) ∨ ringTo s x y < ringTo s x z) → s.block? v = some y → y.phase ≠ .saved →
          Goes .rangeSteal s fun t => Quiet s t ∧ t.block? v = some { y with asked := y.asked ++ [b] } ∧ t.block? b = some { x with stealing := some (v, []) })
  ∧ (∀ (c : Nat) (s : State),
      let cl := s.cluster c
      let g := 24 * c + cl.pos
      let now := (s.cdie (c / 2)).clk
      let f := freeAfter cl (s.grid g).returned
      (now < cl.tick → Machine.exec (.wheelStop c) s = .next s)
      ∧ (cl.tick ≤ now → cl.pos < 24 → (∀ i, i < 24 → (s.grid (24 * c + i)).topups = []) → Goes (.wheelStop c) s fun t => Quiet s t ∧ (t.cluster c).pos = (cl.pos + 1) % 24 ∧ (t.cluster c).tick = now + 2
        ∧ (t.grid g).returned = 0 ∧ (t.cluster c).free + (t.cluster c).held = f + (cl.held - min (s.grid g).returned cl.held) ∧ (∀ cid, gridOf cid ≠ g → t.ctx? cid = s.ctx? cid)
        ∧ ((s.ctxs.map (·.1)).Nodup → (∀ e ∈ s.ctxs, clusterOf (gridOf e.1) = c → ∀ r ∈ requestsOf e.2, r.reserved = false) →
            ((s.ctxs.filter fun e => gridOf e.1 == g).map fun e => ((requestsOf e.2).map (·.price)).sum).sum ≤ f →
            ∀ cid x, s.ctx? cid = some x → gridOf cid = g →
              (∀ r, x.request = some r → x.loop = none → t.ctx? cid = some { x with granted := x.granted + r.price, request := none })
              ∧ ∀ l r, x.request = none → x.loop = some l → l.request = some r → t.ctx? cid = some { x with loop := some { l with held := l.held + r.price, request := none } })))
  ∧ (∀ (s : State), Goes .requestReservation s fun t => Quiet s t ∧ ∀ cid x, s.ctx? cid = some x →
      let dated (r : Request) : Request := if r.cycle + 96 ≤ (s.cdie (dieOf (gridOf cid))).clk then { r with reserved := true } else r
      t.ctx? cid = some { x with request := x.request.map dated, loop := x.loop.map fun l => { l with request := l.request.map dated } })
  ∧ (∀ (s : State), (s.grids.map (·.1)).Nodup → Goes .activityWindowEnd s fun t => Quiet s t ∧ ∀ g x, (g, x) ∈ s.grids →
      let low := decide (x.winReady < 2 ^ 19) && (s.liveRequests g).all fun r => decide (r < 2)
      (x.gated = false → x.warm = 0 → x.winStart + 2 ^ 16 ≤ x.clk → (t.grid g).winStart = x.winStart + 2 ^ 16 ∧ (t.grid g).winReady = 0 ∧ (t.grid g).lowHold = (low || x.lowHold && x.thermal)
        ∧ (low = true → x.change = none → x.cls ≠ 0 → (t.grid g).change = some (0, x.clk + 1)))
      ∧ (x.gated = true ∨ x.warm ≠ 0 ∨ x.clk < x.winStart + 2 ^ 16 → t.grid g = x))
  ∧ (∀ (g n u : Nat) (x : Grid) (s : State), (s.grids.find? fun e => match e.2.change with | some (_, v) => decide (v ≤ e.2.clk) | none => false) = some (g, x) → x.change = some (n, u) →
      Goes .classChangeEffect s fun t => Quiet s t ∧ t.grid g = { x with cls := n, change := none } ∧ ∀ e, e ≠ g → t.grid e = s.grid e)
  ∧ (∀ (cid : Nat) (x : Ctx) (l : Loop) (s : State), s.ctx? cid = some x → x.loop = some l →
      (l.halted = true → l.doneAt = none → (s.blockOf x).phase ≠ .stopping false → l.held < l.price →
        Goes (.loopStep cid) s fun t => Quiet s t ∧ t.ctx? cid = some { x with loop := some { l with halted := false, shed := true, request := some { price := l.price, cycle := (s.cdie (dieOf (gridOf cid))).clk } } })
      ∧ (l.halted = false → l.doneAt = none → (s.blockOf x).phase = .stopping false →
        Goes (.loopStep cid) s fun t => Quiet s t ∧ (t.ctx cid).loop = some { l with halted := true, held := 0, request := none } ∧ (t.prow (rowOf cid)).baton ≠ some (planeOf cid)
          ∧ (t.grid (gridOf cid)).returned = (s.grid (gridOf cid)).returned + l.held)
      ∧ (l.shed = false → l.halted = false →
      (l.doneAt = none → (s.blockOf x).phase ≠ .stopping false →
        (stepTime s cid l = true → stepInputs s cid l = false → Goes (.loopStep cid) s fun t => Quiet s t ∧ t.ctx? cid = some { x with loop := some { l with waited := l.waited + 1 } })
        ∧ (stepTime s cid l = false → Goes (.loopStep cid) s fun t => Quiet s t ∧ t.ctx? cid = some { x with loop := some { l with waited := 0 } })
        ∧ (stepInputs s cid l = true → stepTime s cid l = true → Goes (.loopStep cid) s fun t => Spares s t cid
            ∧ t.fileOf cid = some { x.file with acc := (x.setAcc (l.first + l.n) (tab 32 fun j =>
                dotStep l.fmt ((x.accum (l.first + l.n)).get j) (chunkA s cid l).1 (chunkB s cid l j).1 (chunkA s cid l).2 (chunkB s cid l j).2) 0xFFFFFFFF#32).acc }
            ∧ (t.prow (rowOf cid)).lastStep = some (s.now cid)
            ∧ ∃ m, (t.ctx cid).loop = some m ∧ m.waited = 0 ∧ (m.k, m.n) = (if l.groups ≤ l.n + 1 then (l.k + 1, 0) else (l.k, l.n + 1))
                ∧ m.doneAt = if l.ksteps ≤ m.k then some (s.now cid + 4) else none))
      ∧ (48 ≤ l.waited → Goes (.loopShed cid) s fun t => Quiet s t ∧ (t.ctx cid).loop = some { l with shed := true, held := 0, request := some { price := l.price, cycle := (s.cdie (dieOf (gridOf cid))).clk } }
          ∧ (t.grid (gridOf cid)).returned = (s.grid (gridOf cid)).returned + l.held)
      ∧ ∀ u, l.doneAt = some u → u ≤ s.now cid → Goes (.loopComplete cid) s fun t => Quiet s t ∧ (t.ctx cid).loop = none
          ∧ (t.grid (gridOf cid)).returned = (s.grid (gridOf cid)).returned + l.held ∧ (t.prow (rowOf cid)).lastDone = some (s.now cid) ∧ ∀ h e, l.fut = some h → pendingIn s h e → Resolved t h e 0))
  ∧ ∀ (cid below : Nat) (x : Ctx) (s : State), s.ctx? cid = some x → (s.blockOf x).rows[x.k + 1]? = some below → x.rowid + 1 ≠ (s.blockOf x).hdr.rows → gridOf below ≠ gridOf cid → x.port.full = true →
      let n := if gridOf cid % 24 / 12 = gridOf below % 24 / 12 then 4 else 12
      if x.port.link.length < n then Goes (.linkHandoff cid) s fun t => Quiet s t ∧ t.ctx? cid = some { x with port := { x.port with full := false, link := x.port.link ++ [(x.port.pushed + n, x.port.cells)] } }
      else Machine.exec (.linkHandoff cid) s = .next s

namespace Sys2Proof.Claims
open Sys2Proof Sys2Proof.Machine

/-! ### The Leat's beats, fills and memory errors -/
/-- Operation o of grid g, alone under its number. -/
def Has (s : State) (g : Nat) (o : LeatOp) : Prop := o ∈ (s.grid g).leat ∧ ((s.grid g).leat.map (·.id)).Nodup ∧ o.failure = none
/-- Its beat b. -/
def HasBeat (s : State) (g : Nat) (o : LeatOp) (b : Beat) : Prop := Has s g o ∧ b ∈ o.beats ∧ (o.beats.map (·.id)).Nodup
/-- The beats of o but b. -/
def others (o : LeatOp) (b : Beat) : List Beat := o.beats.filter fun e => e.id != b.id
/-- The operation is over: it has left its queue, and its future, if pending, has settled. -/
def Over (s t : State) (g : Nat) (o : LeatOp) (state : Nat) (value : Word64) (cause : Nat) : Prop :=
  (∀ p ∈ (t.grid g).leat, p.id ≠ o.id) ∧ ∀ e, pendingIn s o.fut e → t.future? o.fut = some { e with state := state, value := value, cause := cause }
/-- Beat b has its answer (R227, R233): the last beat of an operation that has sent all of its own resolves the future with the result; else the others stand. -/
def Beaten (s t : State) (g : Nat) (o : LeatOp) (b : Beat) (result : Word64) : Prop :=
  if o.started = true ∧ o.total ≤ o.at_.1 ∧ others o b = [] then Over s t g o 2 result 0 else ∃ p ∈ (t.grid g).leat, p.id = o.id ∧ p.beats = others o b ∧ p.result = result
/-- Beat b has failed with a status at the byte va of unit n (R215, R232, R233): with no beat left, the operation is over; else it sends no more and waits for the others. -/
def BeatFails (s t : State) (g : Nat) (o : LeatOp) (b : Beat) (r : Run) (status : Nat) : Prop :=
  if others o b = [] then Over s t g o 3 (failWord 6 status r.va) 6 else ∃ p ∈ (t.grid g).leat, p.id = o.id ∧ p.beats = others o b ∧ p.failure = some (r.t, failWord 6 status r.va)
/-- What a read beat's answer brings: the line from home, or from a peer or the host, or the one that came earlier: found in the die cache as the beat went out, or come while its local bytes could not be written (R227, R235). -/
def Brings (s : State) (b : Beat) (reply : BeatReply) (line : List Byte) : Prop :=
  b.answer = some line ∧ (∀ n, reply ≠ .acked n) ∨ b.answer = none ∧ ((reply = .home ∧ b.kind = 0 ∧ ∃ a, s.homeOf b.target = some a ∧ line = s.home.readN a 64) ∨ (reply = .data line ∧ b.kind ≠ 0))
/-- The beat goes past the die cache, or finds its line absent and room for it (R203, R217). -/
def past (s : State) (b : Beat) : Prop := b.atom = true ∨ s.dsplit = 0
def absentHere (s : State) (g fn : Nat) (b : Beat) : Prop :=
  b.atom = false ∧ s.dsplit ≠ 0 ∧ s.dline? (dieOf g) (dkey fn (64 * b.line)) = none ∧ (s.cdie (dieOf g)).dcache.length < dieCacheLines s.dsplit
/-- Nothing keeps a beat of one run from being answered: it is not lost with a link, and meets no lastingly bad memory, no earlier beat on the same bytes, no bank held by another. -/
def unhindered (s : State) (o : LeatOp) (b : Beat) (r : Run) : Prop :=
  b.runs = [r] ∧ r.va % 64 + r.len ≤ 64 ∧ 0 < r.len ∧ s.beatBad o b = false ∧ overtakes s o b = false ∧ s.bankBusy o.cid (runPlaces s o r) = false ∧ b.lost = false
/-- A resident block holds data in line `line` of an array of unit u (R334; the units and arrays are numbered in log entry 60). -/
def lineHeld (s : State) (u array line : Nat) : Prop :=
  let row (n : Nat) : Prop := ∃ e ∈ s.ctxs, gridOf e.1 = u ∧ e.1 % 128 / n = line / (match array with | 3 => 64 | 4 => 160 | 5 => 16 | _ => 1)
  if u < 384 then
    match array with
    | 0 => ∃ e ∈ s.blocks, e.2.phase ≠ .saved ∧ ∃ sp ∈ e.2.spans, sp.g = u ∧ sp.base < 64 * line + 64 ∧ 64 * line < sp.lim
    | 1 => (s.tile u (line / 272)).owner.isSome = true
    | 2 => ∃ e ∈ s.ctxs, gridOf e.1 = u ∧ e.2.banks.getLsbD (line / 16) = true
    | 3 | 4 | 5 => row 1
    | 6 => row 4
    | _ => False
  else u < 392 ∧ array = 0 ∧ ∃ e ∈ s.blocks, e.2.phase ≠ .saved ∧ e.2.cluster / 2 = u - 384 ∧ e.2.rows ≠ [] ∧ e.2.scrbase - 0x10000000 ≤ 64 * line ∧ 64 * line < e.2.scrlim - 0x10000000
/-- The run's local bytes lie in side memory h at off on. -/
def liesAt (s : State) (o : LeatOp) (r : Run) (h off : Nat) : Prop := ∀ i, i < r.len → s.resolve o.cid (o.lAddr r.t + BitVec.ofNat 64 (r.off + i)) 1 = some (.side h, off + i)
end Sys2Proof.Claims

/-- R215, R216, R227, R230 to R235, R247: the Leat's first operation that can go on starts, once the row's earlier stores are acknowledged, with its index list read, or sends its next beat, of which a read of a peer's or the host's line that the die cache holds takes its bytes there; one that goes past the die cache first sends home a line that holds forwarded bytes (R314); a run outside the regions its block may touch fails
the operation with cause 7, a translation that fails with cause 6 and its status. A read's answer reaches local memory, or is kept for the slot; a write's bytes go home, or into the die cache; an atomic is done at its home word and its old value
resolves the future; a status, or 2^20 cycles without an answer (status 5), fails the operation; the last answer settles the future. A peer's acknowledgement ends the wait for a write-back (R313). What a lost link took gets no answer, times out, and its task restarts (R355). R213, R214: a walk's page enters both TLBs of its die (log entry 99). Each completes, with its own effect, wherever the
stated conditions on the state hold: leatBeatIssue, leatBeatComplete, requestTimeout, pageWalkComplete. As the model's own choice it rests on the log entries 7, 9, 10, 34, 37, 38, 39, 41, 42, 89, 99, 103, 112. -/
def Obligations.LeatEvents : Prop :=
  (∀ (g : Nat) (o : LeatOp) (s : State), Has s g o → (s.grid g).leat.find? (fun p => !p.sent && !p.stuck s) = some o → o.at_.1 < o.total →
    let b := s.blockOf (s.ctx o.cid)
    let next := o.runsAt 64 o.at_.1 o.at_.2 none
    let need := match o.kind with | .atomic _ _ _ _ => 2 | _ => if o.writesGlobal then 1 else 0
    (o.started = false → o.waitStores ≠ 0 → Machine.exec (.leatBeatIssue g) s = .next s)
    ∧ (o.started = false → o.waitStores = 0 → s.listBad o = true → o.beats = [] → Goes (.leatBeatIssue g) s fun t => Quiet s t ∧ Over s t g o 3 (failWord 6 6 o.gva) 6)
    ∧ (o.started = false → o.waitStores = 0 → s.listBad o = false → Goes (.leatBeatIssue g) s fun t => Quiet s t ∧ { o with started := true, indices := if o.needsList then some (readList s o) else none } ∈ (t.grid g).leat)
    ∧ (o.started = true → 256 ≤ (s.grid g).outstanding → Machine.exec (.leatBeatIssue g) s = .next s)
    ∧ (o.started = true → (s.grid g).outstanding < 256 → ∀ r0, next.1.head? = some r0 →
        (∀ x, next.1.find? (fun r => !runAllowed b o.shut o.reg need r) = some x →
          Goes (.leatBeatIssue g) s fun t => Quiet s t ∧ (o.beats = [] → Over s t g o 3 (failWord 7 0 x.va) 7))
        ∧ ((∀ r ∈ next.1, runAllowed b o.shut o.reg need r = true) →
          (∀ st, st < 16 → beatTarget s (clusterOf g) b o (r0.va / 64) = some (.error st) → (st ≠ 6 ∨ s.walkLost b.fn r0.va = false) → Goes (.leatBeatIssue g) s fun t => Quiet s t ∧ (o.beats = [] → Over s t g o 3 (failWord 6 st r0.va) 6))
          ∧ ∀ kind target atom, beatTarget s (clusterOf g) b o (r0.va / 64) = some (.ok (kind, target, atom)) →
            let held := s.dline? (dieOf g) (dkey b.fn (64 * (r0.va / 64)))
            Goes (.leatBeatIssue g) s fun t => (∀ c, t.fileOf c = s.fileOf c) ∧ ∃ p ∈ (t.grid g).leat, p.id = o.id ∧ p.at_ = next.2 ∧ ∃ bt, p.beats = o.beats ++ [bt]
              ∧ bt.line = r0.va / 64 ∧ bt.runs = next.1 ∧ bt.kind = kind ∧ bt.target = target ∧ bt.atom = (atom || runsUncached b next.1) ∧ bt.expires = (s.grid g).clk + 2 ^ 20 ∧ bt.gen = s.itgen
              ∧ ((¬ past s bt ∨ ∀ l, held = some l → l.tags = []) → SameMem s t)
              ∧ (past s bt → (∃ l, held = some l ∧ l.tags ≠ []) → SameMem s { t with home := s.home } ∧ t.dline? (dieOf g) (dkey b.fn (64 * (r0.va / 64))) = none)
              ∧ (kind ≠ 0 → o.writesGlobal = false → ¬ past s bt → lineHit s (dieOf g) b.fn bt = true → ∃ l, held = some l ∧ bt.answer = some l.bytes)
              ∧ (kind = 0 ∨ o.writesGlobal = true ∨ past s bt ∨ lineHit s (dieOf g) b.fn bt = false → bt.answer = none)
              ∧ (kind ≠ 0 → o.writesGlobal = false → past s bt ∨ lineHit s (dieOf g) b.fn bt = false → Output.memRequest kind target (.read 64) ∈ t.out))))
  ∧ (∀ (g : Nat) (o : LeatOp) (b : Beat) (r : Run) (s : State), s.Inv → HasBeat s g o b → unhindered s o b r →
      let fn := (s.blockOf (s.ctx o.cid)).fn
      let go (reply : BeatReply) (P : State → Prop) : Prop := Goes (.leatBeatComplete g o.id b.id reply) s fun t => P t ∧ ∀ c, t.fileOf c = s.fileOf c
      (∀ reply line h off, o.kind = .cpyLd ∨ o.kind = .gather → Brings s b reply line → b.answer ≠ none ∨ past s b ∨ absentHere s g fn b → liesAt s o r h off →
        go reply fun t => Beaten s t g o b o.result ∧ (∀ i, i < r.len → t.side.read (2 ^ 21 * h + off + i) = line.getD (r.va % 64 + i) 0)
          ∧ SameBut s t (fun a => 2 ^ 21 * h + off ≤ a ∧ a < 2 ^ 21 * h + off + r.len) (fun _ => False))
      ∧ (∀ reply line slot gen idx, o.kind = .fill slot gen idx → Brings s b reply line → b.answer ≠ none ∨ past s b ∨ absentHere s g fn b →
        go reply fun t => Beaten s t g o b o.result ∧ SameMem s { t with slotMem := s.slotMem }
          ∧ (∀ p ∈ (t.grid g).leat, p.id = o.id → p.staged = o.staged.writeN (r.t * unitSize o.ty + r.off) ((line.drop (r.va % 64)).take r.len))
          ∧ (o.started = true → o.total ≤ o.at_.1 → others o b = [] → (s.tile g slot).gen = gen → (s.tile g slot).state = 1 → t.tile g slot = { s.tile g slot with state := 2 }))
      ∧ (∀ h off a, o.kind = .cpySt ∨ o.kind = .scatter → b.kind = 0 → b.answer = none → liesAt s o r h off →
        (past s b → s.homeOf (b.target + r.va % 64) = some a → s.memBad a = false →
          go .home fun t => Beaten s t g o b o.result ∧ Wrote s t a ((List.range r.len).map fun i => s.side.read (2 ^ 21 * h + off + i)))
        ∧ (absentHere s g fn b → go .home fun t => Beaten s t g o b o.result ∧ SameMem s t ∧ ∃ l, t.dline? (dieOf g) (dkey fn (64 * b.line)) = some l
            ∧ ∀ i, i < r.len → l.dirty.getLsbD (r.va % 64 + i) = true ∧ l.bytes.getD (r.va % 64 + i) 0 = s.side.read (2 ^ 21 * h + off + i)))
      ∧ (∀ aop ty x e a, o.kind = .atomic aop ty x e → b.kind = 0 → b.answer = none → s.homeOf (b.target + r.va % 64) = some a →
        let n := tyWidth ty / 8
        let old := s.home.num a n
        go .home fun t => Beaten s t g o b (extTy ty old) ∧ Wrote s t a (leBytes n (if atomWrites aop ty old e.toNat then atomApply aop ty old x.toNat e.toNat else old))))
  ∧ (∀ (g : Nat) (o : LeatOp) (b : Beat) (r : Run) (s : State), HasBeat s g o b → b.runs.head? = some r →
      (∀ st, b.answer = none → b.lost = false → if (b.kind ≠ 0 ∨ st = 6) ∧ 1 ≤ st ∧ st ≤ 6 then Goes (.leatBeatComplete g o.id b.id (.status st)) s fun t => Quiet s t ∧ BeatFails s t g o b r st
        else Machine.exec (.leatBeatComplete g o.id b.id (.status st)) s = .next s)
      ∧ (if b.crosses s g o = true ∧ b.expires ≤ (s.grid g).clk then Goes (.requestTimeout g o.id b.id) s fun t => Quiet s t ∧ BeatFails s t g o b r 5 ∧ (b.lost = true → (s.blockOf (s.ctx o.cid)).task ∈ t.lostTasks)
         else Machine.exec (.requestTimeout g o.id b.id) s = .next s)
      ∧ (b.answer = none → b.lost = true → ∀ reply, (∀ n, reply ≠ .acked n) → Machine.exec (.leatBeatComplete g o.id b.id reply) s = .next s))
  ∧ (∀ (g op beat n : Nat) (s : State), Goes (.leatBeatComplete g op beat (.acked n)) s fun t => Quiet s t ∧ t.peerWrites = s.peerWrites.filter (· != n))
  ∧ ∀ (d fn granule : Nat) (bad : Bool) (s : State),
      ((s.cdie d).walks.any fun w => w.1 == fn && w.2.1 == granule && decide (w.2.2 ≤ (s.cdie d).clk)) = true →
      (∀ p, bad = false → (fn, granule) ∉ (s.cdie d).lostWalks → walkFrom s fn (4096 * granule) = .ok p → Goes (.pageWalkComplete d fn granule bad) s fun t => Quiet s t ∧ p ∈ (t.cluster (2 * d)).tlb ∧ p ∈ (t.cluster (2 * d + 1)).tlb)
      ∧ ∀ st, ((fn, granule) ∈ (s.cdie d).lostWalks ∧ st = 5 ∨ (fn, granule) ∉ (s.cdie d).lostWalks ∧ (bad = true ∧ st = 6 ∨ bad = false ∧ walkFrom s fn (4096 * granule) = .error st)) →
          Goes (.pageWalkComplete d fn granule bad) s fun t => Quiet s t ∧ (fn, granule, st, (s.cdie d).clk + 4) ∈ (t.cdie d).walkFails

/-- R88, R217, R250: a line of code comes into the instruction cache, unless an icinv overtook it; a line that leaves a die cache puts its dirty bytes home and no other, at once or, under a rewrite of the interleave table, after it (R210), and to a page that cannot be written any more not at all (R352: that nobody is told is the model's choice, log entry 117); a bank operation that is over returns its buckets. R325, R334, R352: an error that a
retry mends costs time only and is counted as transient; one that lasts is counted, and marks the register, poisons the load and records the line with the fault, retires the page or fails the operation; a bad line not in use is replaced by a spare, and with none left its grid retires. As the model's own choice it rests on the log entries 34, 57, 60, 77, 80, 82, 103, 117. -/
def Obligations.FillsAndErrors : Prop :=
  (∀ (g fn line : Nat) (e : Fill) (s : State), ((s.grid g).fills.find? fun e => e.fn == fn && e.line == line && decide (e.due ≤ (s.grid g).clk)) = some e →
    (e.discard = true ∨ e.lost = true → Goes (.icacheLineFill g fn line) s fun t => Quiet s t ∧ t.grid g = { s.grid g with fills := (s.grid g).fills.erase e })
    ∧ (e.discard = false → e.lost = false → s.memBad e.addr = false → Goes (.icacheLineFill g fn line) s fun t => Quiet s t ∧ (t.grid g).fills = (s.grid g).fills.erase e
      ∧ Tables.get? (t.grid g).icache (fn * 2 ^ 46 + line) = some ((List.range 64).map fun i => match s.dline? (dieOf g) (dkey fn (64 * line)) with
          | some l => if l.kind = 0 ∧ l.target = e.target ∧ l.valid.getLsbD i = true then l.bytes.getD i 0 else s.home.read (e.addr + i)
          | none => s.home.read (e.addr + i))))
  ∧ (∀ (d line : Nat) (l : DLine) (s : State), s.dline? d line = some l → l.kind = 0 → l.bytes.length = 64 → (∀ i, i < 64 → s.heldPa (l.target + i) = true) →
      Goes (.dieCacheEvict d line) s fun t => Quiet s t ∧ t.dline? d line = none ∧ (l.dirty ≠ 0 → s.heldBacks.length < t.heldBacks.length))
  ∧ (∀ (d line a : Nat) (l : DLine) (s : State), s.Inv → (∀ i, i < 64 → s.heldPa (l.target + i) = false) → s.dline? d line = some l → l.kind = 0 → l.bytes.length = 64 → (∀ i, i < 64 → s.homeOf (l.target + i) = some (a + i)) →
      Goes (.dieCacheEvict d line) s fun t => t.dline? d line = none ∧ SameMem s { t with home := s.home } ∧ (∀ c, t.fileOf c = s.fileOf c)
        ∧ ((∀ i, i < 64 → s.memBad (a + i) = false) →
            ∀ x, t.home.read x = if a ≤ x ∧ x < a + 64 ∧ l.dirty.getLsbD (x - a) = true then l.bytes.getD (x - a) 0 else s.home.read x)
        ∧ ((∀ i, i < 64 → s.memBad (a + i) = true) → SameMem s t))
  ∧ (∀ (g id cid : Nat) (x : Ctx) (s : State), FirstCtx s (fun c y => gridOf c == g && y.bankOps.any fun o => o.1 == id && decide (o.2.2.1 ≤ (s.grid g).clk)) cid x →
      let ended (o : Nat × Word32 × Nat × Nat) : Bool := o.1 == id && decide (o.2.2.1 ≤ (s.grid g).clk)
      Goes (.bankOpDone g id) s fun t => Quiet s t ∧ t.ctx? cid = some { x with bankOps := x.bankOps.filter fun o => !ended o }
        ∧ (t.grid g).returned = (s.grid g).returned + ((x.bankOps.filter ended).map fun o => o.2.2.2).sum)
  ∧ (∀ (site : ErrSite) (ok : Bool) (s : State), s.errorAt site = false → Machine.exec (.memoryErrorRetry site ok) s = .next s)
  ∧ (∀ (site : ErrSite) (s : State), s.errorAt site = true → Goes (.memoryErrorRetry site true) s fun t => Quiet s t ∧ t.ecntTrans = min 65535 (s.ecntTrans + 1) ∧ t.ecntLast = s.ecntLast)
  ∧ (∀ (site : ErrSite) (s : State), s.errorAt site = true → Goes (.memoryErrorRetry site false) s fun t => Quiet s t ∧ t.ecntLast = min 65535 (s.ecntLast + 1) ∧ t.ecntTrans = s.ecntTrans
      ∧ (∀ cid n, site = .vreg cid n → (3, 64 * (cid % 128) + n) ∈ t.badLinesOf (gridOf cid)) ∧ (∀ cid n, site = .sreg cid n → (4, 160 * (cid % 128) + n) ∈ t.badLinesOf (gridOf cid))
      ∧ (∀ cid n, site = .acc cid n → (5, 16 * (cid % 128) + n) ∈ t.badLinesOf (gridOf cid)) ∧ (∀ u array line, site = .sram u array line → (array, line) ∈ t.badLinesOf u)
      ∧ (∀ cid id k, site = .load cid id k → (∀ r ∈ (t.ctx cid).inflight, r.id = id → r.poison = r.loadAddr)
        ∧ ∀ r l, ((s.ctx cid).inflight.find? fun e => e.id == id) = some r → r.lines[k]? = some l → (0, l.2) ∈ t.badLinesOf l.1)
      ∧ (∀ g op id o b r, site = .beat g op id → HasBeat s g o b → o.id = op → b.id = id → b.runs.head? = some r → BeatFails s t g o b r 6 ∧ ∀ a, b.kind = 0 → s.homeOf b.target = some a → a / 4096 ∈ t.badPages)
      ∧ (∀ d fn granule level, site = .walk d fn granule level → (fn, granule, 6, (s.cdie d).clk + 4) ∈ (t.cdie d).walkFails
        ∧ ∀ pa a, (walkReads s fn (4096 * granule))[level]? = some pa → s.homeOf pa = some a → a / 4096 ∈ t.badPages)
      ∧ (∀ g fn line a target, site = .fetch g fn line → codeLine s (clusterOf g) fn line = some (.ok (a, target)) → a / 4096 ∈ t.badPages))
  ∧ ∀ (u array line : Nat) (s : State),
      ((array, line) ∉ s.badLinesOf u ∨ lineHeld s u array line → Machine.exec (.sramLineRemap u array line) s = .next s)
      ∧ ((array, line) ∈ s.badLinesOf u → ¬ lineHeld s u array line → Goes (.sramLineRemap u array line) s fun t => Quiet s t ∧ (∀ v, v ≠ u → t.badLinesOf v = s.badLinesOf v ∧ t.remappedOf v = s.remappedOf v)
          ∧ if ((s.remappedOf u).filter fun e => e.1 == array).length < Config.spareLines (arrayKind u array) then t.badLinesOf u = (s.badLinesOf u).erase (array, line) ∧ t.remappedOf u = s.remappedOf u ++ [(array, line)]
            else t.badLinesOf u = s.badLinesOf u ∧ t.remappedOf u = s.remappedOf u ∧ (u < 384 → (t.grid u).retireAtIdle = true))
end

