-- ==== Sys2Proof/Laws/State.lean ====
section
/-! SUPPORT. What each update of State leaves alone: one lemma per field per update, true by unfolding. -/
namespace Sys2Proof.Machine

/-! ### setCtx -/
section
variable (s : State) (cid : Nat) (x : Ctx)
@[simp] theorem State.setCtx_cur : (s.setCtx cid x).cur = s.cur := rfl
@[simp] theorem State.setCtx_agenda : (s.setCtx cid x).agenda = s.agenda := rfl
@[simp] theorem State.setCtx_verdict : (s.setCtx cid x).verdict = s.verdict := rfl
@[simp] theorem State.setCtx_inputs : (s.setCtx cid x).inputs = s.inputs := rfl
@[simp] theorem State.setCtx_out : (s.setCtx cid x).out = s.out := rfl
@[simp] theorem State.setCtx_draws : (s.setCtx cid x).draws = s.draws := rfl
@[simp] theorem State.setCtx_home : (s.setCtx cid x).home = s.home := rfl
@[simp] theorem State.setCtx_side : (s.setCtx cid x).side = s.side := rfl
@[simp] theorem State.setCtx_scratch : (s.setCtx cid x).scratch = s.scratch := rfl
@[simp] theorem State.setCtx_slotMem : (s.setCtx cid x).slotMem = s.slotMem := rfl
@[simp] theorem State.setCtx_bankMem : (s.setCtx cid x).bankMem = s.bankMem := rfl
@[simp] theorem State.setCtx_sideWriter : (s.setCtx cid x).sideWriter = s.sideWriter := rfl
@[simp] theorem State.setCtx_scratchWriter : (s.setCtx cid x).scratchWriter = s.scratchWriter := rfl
@[simp] theorem State.setCtx_ctxs : (s.setCtx cid x).ctxs = Tables.set cid x s.ctxs := rfl
@[simp] theorem State.setCtx_prows : (s.setCtx cid x).prows = s.prows := rfl
@[simp] theorem State.setCtx_grids : (s.setCtx cid x).grids = s.grids := rfl
@[simp] theorem State.setCtx_clusters : (s.setCtx cid x).clusters = s.clusters := rfl
@[simp] theorem State.setCtx_cdies : (s.setCtx cid x).cdies = s.cdies := rfl
@[simp] theorem State.setCtx_mdies : (s.setCtx cid x).mdies = s.mdies := rfl
@[simp] theorem State.setCtx_blocks : (s.setCtx cid x).blocks = s.blocks := rfl
@[simp] theorem State.setCtx_tasks : (s.setCtx cid x).tasks = s.tasks := rfl
@[simp] theorem State.setCtx_replays : (s.setCtx cid x).replays = s.replays := rfl
@[simp] theorem State.setCtx_slots : (s.setCtx cid x).slots = s.slots := rfl
@[simp] theorem State.setCtx_funcs : (s.setCtx cid x).funcs = s.funcs := rfl
@[simp] theorem State.setCtx_queues : (s.setCtx cid x).queues = s.queues := rfl
@[simp] theorem State.setCtx_nextBlock : (s.setCtx cid x).nextBlock = s.nextBlock := rfl
@[simp] theorem State.setCtx_nextTask : (s.setCtx cid x).nextTask = s.nextTask := rfl
@[simp] theorem State.setCtx_nextReplay : (s.setCtx cid x).nextReplay = s.nextReplay := rfl
@[simp] theorem State.setCtx_watchSerial : (s.setCtx cid x).watchSerial = s.watchSerial := rfl
@[simp] theorem State.setCtx_wakes : (s.setCtx cid x).wakes = s.wakes := rfl
@[simp] theorem State.setCtx_kickCount : (s.setCtx cid x).kickCount = s.kickCount := rfl
@[simp] theorem State.setCtx_accId : (s.setCtx cid x).accId = s.accId := rfl
@[simp] theorem State.setCtx_journal : (s.setCtx cid x).journal = s.journal := rfl
@[simp] theorem State.setCtx_xclk : (s.setCtx cid x).xclk = s.xclk := rfl
@[simp] theorem State.setCtx_xgated : (s.setCtx cid x).xgated = s.xgated := rfl
@[simp] theorem State.setCtx_invoked : (s.setCtx cid x).invoked = s.invoked := rfl
@[simp] theorem State.setCtx_sentTo : (s.setCtx cid x).sentTo = s.sentTo := rfl
@[simp] theorem State.setCtx_retireWrites : (s.setCtx cid x).retireWrites = s.retireWrites := rfl
@[simp] theorem State.setCtx_retained : (s.setCtx cid x).retained = s.retained := rfl
@[simp] theorem State.setCtx_peerWrites : (s.setCtx cid x).peerWrites = s.peerWrites := rfl
@[simp] theorem State.setCtx_peerNext : (s.setCtx cid x).peerNext = s.peerNext := rfl
@[simp] theorem State.setCtx_heldBacks : (s.setCtx cid x).heldBacks = s.heldBacks := rfl
@[simp] theorem State.setCtx_heldReqs : (s.setCtx cid x).heldReqs = s.heldReqs := rfl
@[simp] theorem State.setCtx_fenceOrder : (s.setCtx cid x).fenceOrder = s.fenceOrder := rfl
@[simp] theorem State.setCtx_ranges : (s.setCtx cid x).ranges = s.ranges := rfl
@[simp] theorem State.setCtx_itable : (s.setCtx cid x).itable = s.itable := rfl
@[simp] theorem State.setCtx_itmap : (s.setCtx cid x).itmap = s.itmap := rfl
@[simp] theorem State.setCtx_itgen : (s.setCtx cid x).itgen = s.itgen := rfl
@[simp] theorem State.setCtx_itbusy : (s.setCtx cid x).itbusy = s.itbusy := rfl
@[simp] theorem State.setCtx_itstatus : (s.setCtx cid x).itstatus = s.itstatus := rfl
@[simp] theorem State.setCtx_dsplit : (s.setCtx cid x).dsplit = s.dsplit := rfl
@[simp] theorem State.setCtx_dsplitLocked : (s.setCtx cid x).dsplitLocked = s.dsplitLocked := rfl
@[simp] theorem State.setCtx_flushes : (s.setCtx cid x).flushes = s.flushes := rfl
@[simp] theorem State.setCtx_wovlHeld : (s.setCtx cid x).wovlHeld = s.wovlHeld := rfl
@[simp] theorem State.setCtx_pwr : (s.setCtx cid x).pwr = s.pwr := rfl
@[simp] theorem State.setCtx_plim : (s.setCtx cid x).plim = s.plim := rfl
@[simp] theorem State.setCtx_clamp : (s.setCtx cid x).clamp = s.clamp := rfl
@[simp] theorem State.setCtx_ecntDrop : (s.setCtx cid x).ecntDrop = s.ecntDrop := rfl
@[simp] theorem State.setCtx_ecntLast : (s.setCtx cid x).ecntLast = s.ecntLast := rfl
@[simp] theorem State.setCtx_ecntTrans : (s.setCtx cid x).ecntTrans = s.ecntTrans := rfl
@[simp] theorem State.setCtx_badPages : (s.setCtx cid x).badPages = s.badPages := rfl
@[simp] theorem State.setCtx_hostWins : (s.setCtx cid x).hostWins = s.hostWins := rfl
@[simp] theorem State.setCtx_flash : (s.setCtx cid x).flash = s.flash := rfl
@[simp] theorem State.setCtx_recovery : (s.setCtx cid x).recovery = s.recovery := rfl
@[simp] theorem State.setCtx_badLinks : (s.setCtx cid x).badLinks = s.badLinks := rfl
@[simp] theorem State.setCtx_badPorts : (s.setCtx cid x).badPorts = s.badPorts := rfl
@[simp] theorem State.setCtx_badReduction : (s.setCtx cid x).badReduction = s.badReduction := rfl
@[simp] theorem State.setCtx_badStacks : (s.setCtx cid x).badStacks = s.badStacks := rfl
@[simp] theorem State.setCtx_lostTasks : (s.setCtx cid x).lostTasks = s.lostTasks := rfl
end

/-! ### setRow -/
section
variable (s : State) (p : Nat) (x : PhysRow)
@[simp] theorem State.setRow_cur : (s.setRow p x).cur = s.cur := rfl
@[simp] theorem State.setRow_agenda : (s.setRow p x).agenda = s.agenda := rfl
@[simp] theorem State.setRow_verdict : (s.setRow p x).verdict = s.verdict := rfl
@[simp] theorem State.setRow_inputs : (s.setRow p x).inputs = s.inputs := rfl
@[simp] theorem State.setRow_out : (s.setRow p x).out = s.out := rfl
@[simp] theorem State.setRow_draws : (s.setRow p x).draws = s.draws := rfl
@[simp] theorem State.setRow_home : (s.setRow p x).home = s.home := rfl
@[simp] theorem State.setRow_side : (s.setRow p x).side = s.side := rfl
@[simp] theorem State.setRow_scratch : (s.setRow p x).scratch = s.scratch := rfl
@[simp] theorem State.setRow_slotMem : (s.setRow p x).slotMem = s.slotMem := rfl
@[simp] theorem State.setRow_bankMem : (s.setRow p x).bankMem = s.bankMem := rfl
@[simp] theorem State.setRow_sideWriter : (s.setRow p x).sideWriter = s.sideWriter := rfl
@[simp] theorem State.setRow_scratchWriter : (s.setRow p x).scratchWriter = s.scratchWriter := rfl
@[simp] theorem State.setRow_ctxs : (s.setRow p x).ctxs = s.ctxs := rfl
@[simp] theorem State.setRow_prows : (s.setRow p x).prows = Tables.set p x s.prows := rfl
@[simp] theorem State.setRow_grids : (s.setRow p x).grids = s.grids := rfl
@[simp] theorem State.setRow_clusters : (s.setRow p x).clusters = s.clusters := rfl
@[simp] theorem State.setRow_cdies : (s.setRow p x).cdies = s.cdies := rfl
@[simp] theorem State.setRow_mdies : (s.setRow p x).mdies = s.mdies := rfl
@[simp] theorem State.setRow_blocks : (s.setRow p x).blocks = s.blocks := rfl
@[simp] theorem State.setRow_tasks : (s.setRow p x).tasks = s.tasks := rfl
@[simp] theorem State.setRow_replays : (s.setRow p x).replays = s.replays := rfl
@[simp] theorem State.setRow_slots : (s.setRow p x).slots = s.slots := rfl
@[simp] theorem State.setRow_funcs : (s.setRow p x).funcs = s.funcs := rfl
@[simp] theorem State.setRow_queues : (s.setRow p x).queues = s.queues := rfl
@[simp] theorem State.setRow_nextBlock : (s.setRow p x).nextBlock = s.nextBlock := rfl
@[simp] theorem State.setRow_nextTask : (s.setRow p x).nextTask = s.nextTask := rfl
@[simp] theorem State.setRow_nextReplay : (s.setRow p x).nextReplay = s.nextReplay := rfl
@[simp] theorem State.setRow_watchSerial : (s.setRow p x).watchSerial = s.watchSerial := rfl
@[simp] theorem State.setRow_wakes : (s.setRow p x).wakes = s.wakes := rfl
@[simp] theorem State.setRow_kickCount : (s.setRow p x).kickCount = s.kickCount := rfl
@[simp] theorem State.setRow_accId : (s.setRow p x).accId = s.accId := rfl
@[simp] theorem State.setRow_journal : (s.setRow p x).journal = s.journal := rfl
@[simp] theorem State.setRow_xclk : (s.setRow p x).xclk = s.xclk := rfl
@[simp] theorem State.setRow_xgated : (s.setRow p x).xgated = s.xgated := rfl
@[simp] theorem State.setRow_invoked : (s.setRow p x).invoked = s.invoked := rfl
@[simp] theorem State.setRow_sentTo : (s.setRow p x).sentTo = s.sentTo := rfl
@[simp] theorem State.setRow_retireWrites : (s.setRow p x).retireWrites = s.retireWrites := rfl
@[simp] theorem State.setRow_retained : (s.setRow p x).retained = s.retained := rfl
@[simp] theorem State.setRow_peerWrites : (s.setRow p x).peerWrites = s.peerWrites := rfl
@[simp] theorem State.setRow_peerNext : (s.setRow p x).peerNext = s.peerNext := rfl
@[simp] theorem State.setRow_heldBacks : (s.setRow p x).heldBacks = s.heldBacks := rfl
@[simp] theorem State.setRow_heldReqs : (s.setRow p x).heldReqs = s.heldReqs := rfl
@[simp] theorem State.setRow_fenceOrder : (s.setRow p x).fenceOrder = s.fenceOrder := rfl
@[simp] theorem State.setRow_ranges : (s.setRow p x).ranges = s.ranges := rfl
@[simp] theorem State.setRow_itable : (s.setRow p x).itable = s.itable := rfl
@[simp] theorem State.setRow_itmap : (s.setRow p x).itmap = s.itmap := rfl
@[simp] theorem State.setRow_itgen : (s.setRow p x).itgen = s.itgen := rfl
@[simp] theorem State.setRow_itbusy : (s.setRow p x).itbusy = s.itbusy := rfl
@[simp] theorem State.setRow_itstatus : (s.setRow p x).itstatus = s.itstatus := rfl
@[simp] theorem State.setRow_dsplit : (s.setRow p x).dsplit = s.dsplit := rfl
@[simp] theorem State.setRow_dsplitLocked : (s.setRow p x).dsplitLocked = s.dsplitLocked := rfl
@[simp] theorem State.setRow_flushes : (s.setRow p x).flushes = s.flushes := rfl
@[simp] theorem State.setRow_wovlHeld : (s.setRow p x).wovlHeld = s.wovlHeld := rfl
@[simp] theorem State.setRow_pwr : (s.setRow p x).pwr = s.pwr := rfl
@[simp] theorem State.setRow_plim : (s.setRow p x).plim = s.plim := rfl
@[simp] theorem State.setRow_clamp : (s.setRow p x).clamp = s.clamp := rfl
@[simp] theorem State.setRow_ecntDrop : (s.setRow p x).ecntDrop = s.ecntDrop := rfl
@[simp] theorem State.setRow_ecntLast : (s.setRow p x).ecntLast = s.ecntLast := rfl
@[simp] theorem State.setRow_ecntTrans : (s.setRow p x).ecntTrans = s.ecntTrans := rfl
@[simp] theorem State.setRow_badPages : (s.setRow p x).badPages = s.badPages := rfl
@[simp] theorem State.setRow_hostWins : (s.setRow p x).hostWins = s.hostWins := rfl
@[simp] theorem State.setRow_flash : (s.setRow p x).flash = s.flash := rfl
@[simp] theorem State.setRow_recovery : (s.setRow p x).recovery = s.recovery := rfl
@[simp] theorem State.setRow_badLinks : (s.setRow p x).badLinks = s.badLinks := rfl
@[simp] theorem State.setRow_badPorts : (s.setRow p x).badPorts = s.badPorts := rfl
@[simp] theorem State.setRow_badReduction : (s.setRow p x).badReduction = s.badReduction := rfl
@[simp] theorem State.setRow_badStacks : (s.setRow p x).badStacks = s.badStacks := rfl
@[simp] theorem State.setRow_lostTasks : (s.setRow p x).lostTasks = s.lostTasks := rfl
end

/-! ### setGrid -/
section
variable (s : State) (g : Nat) (x : Grid)
@[simp] theorem State.setGrid_cur : (s.setGrid g x).cur = s.cur := rfl
@[simp] theorem State.setGrid_agenda : (s.setGrid g x).agenda = s.agenda := rfl
@[simp] theorem State.setGrid_verdict : (s.setGrid g x).verdict = s.verdict := rfl
@[simp] theorem State.setGrid_inputs : (s.setGrid g x).inputs = s.inputs := rfl
@[simp] theorem State.setGrid_out : (s.setGrid g x).out = s.out := rfl
@[simp] theorem State.setGrid_draws : (s.setGrid g x).draws = s.draws := rfl
@[simp] theorem State.setGrid_home : (s.setGrid g x).home = s.home := rfl
@[simp] theorem State.setGrid_side : (s.setGrid g x).side = s.side := rfl
@[simp] theorem State.setGrid_scratch : (s.setGrid g x).scratch = s.scratch := rfl
@[simp] theorem State.setGrid_slotMem : (s.setGrid g x).slotMem = s.slotMem := rfl
@[simp] theorem State.setGrid_bankMem : (s.setGrid g x).bankMem = s.bankMem := rfl
@[simp] theorem State.setGrid_sideWriter : (s.setGrid g x).sideWriter = s.sideWriter := rfl
@[simp] theorem State.setGrid_scratchWriter : (s.setGrid g x).scratchWriter = s.scratchWriter := rfl
@[simp] theorem State.setGrid_ctxs : (s.setGrid g x).ctxs = s.ctxs := rfl
@[simp] theorem State.setGrid_prows : (s.setGrid g x).prows = s.prows := rfl
@[simp] theorem State.setGrid_grids : (s.setGrid g x).grids = Tables.set g x s.grids := rfl
@[simp] theorem State.setGrid_clusters : (s.setGrid g x).clusters = s.clusters := rfl
@[simp] theorem State.setGrid_cdies : (s.setGrid g x).cdies = s.cdies := rfl
@[simp] theorem State.setGrid_mdies : (s.setGrid g x).mdies = s.mdies := rfl
@[simp] theorem State.setGrid_blocks : (s.setGrid g x).blocks = s.blocks := rfl
@[simp] theorem State.setGrid_tasks : (s.setGrid g x).tasks = s.tasks := rfl
@[simp] theorem State.setGrid_replays : (s.setGrid g x).replays = s.replays := rfl
@[simp] theorem State.setGrid_slots : (s.setGrid g x).slots = s.slots := rfl
@[simp] theorem State.setGrid_funcs : (s.setGrid g x).funcs = s.funcs := rfl
@[simp] theorem State.setGrid_queues : (s.setGrid g x).queues = s.queues := rfl
@[simp] theorem State.setGrid_nextBlock : (s.setGrid g x).nextBlock = s.nextBlock := rfl
@[simp] theorem State.setGrid_nextTask : (s.setGrid g x).nextTask = s.nextTask := rfl
@[simp] theorem State.setGrid_nextReplay : (s.setGrid g x).nextReplay = s.nextReplay := rfl
@[simp] theorem State.setGrid_watchSerial : (s.setGrid g x).watchSerial = s.watchSerial := rfl
@[simp] theorem State.setGrid_wakes : (s.setGrid g x).wakes = s.wakes := rfl
@[simp] theorem State.setGrid_kickCount : (s.setGrid g x).kickCount = s.kickCount := rfl
@[simp] theorem State.setGrid_accId : (s.setGrid g x).accId = s.accId := rfl
@[simp] theorem State.setGrid_journal : (s.setGrid g x).journal = s.journal := rfl
@[simp] theorem State.setGrid_xclk : (s.setGrid g x).xclk = s.xclk := rfl
@[simp] theorem State.setGrid_xgated : (s.setGrid g x).xgated = s.xgated := rfl
@[simp] theorem State.setGrid_invoked : (s.setGrid g x).invoked = s.invoked := rfl
@[simp] theorem State.setGrid_sentTo : (s.setGrid g x).sentTo = s.sentTo := rfl
@[simp] theorem State.setGrid_retireWrites : (s.setGrid g x).retireWrites = s.retireWrites := rfl
@[simp] theorem State.setGrid_retained : (s.setGrid g x).retained = s.retained := rfl
@[simp] theorem State.setGrid_peerWrites : (s.setGrid g x).peerWrites = s.peerWrites := rfl
@[simp] theorem State.setGrid_peerNext : (s.setGrid g x).peerNext = s.peerNext := rfl
@[simp] theorem State.setGrid_heldBacks : (s.setGrid g x).heldBacks = s.heldBacks := rfl
@[simp] theorem State.setGrid_heldReqs : (s.setGrid g x).heldReqs = s.heldReqs := rfl
@[simp] theorem State.setGrid_fenceOrder : (s.setGrid g x).fenceOrder = s.fenceOrder := rfl
@[simp] theorem State.setGrid_ranges : (s.setGrid g x).ranges = s.ranges := rfl
@[simp] theorem State.setGrid_itable : (s.setGrid g x).itable = s.itable := rfl
@[simp] theorem State.setGrid_itmap : (s.setGrid g x).itmap = s.itmap := rfl
@[simp] theorem State.setGrid_itgen : (s.setGrid g x).itgen = s.itgen := rfl
@[simp] theorem State.setGrid_itbusy : (s.setGrid g x).itbusy = s.itbusy := rfl
@[simp] theorem State.setGrid_itstatus : (s.setGrid g x).itstatus = s.itstatus := rfl
@[simp] theorem State.setGrid_dsplit : (s.setGrid g x).dsplit = s.dsplit := rfl
@[simp] theorem State.setGrid_dsplitLocked : (s.setGrid g x).dsplitLocked = s.dsplitLocked := rfl
@[simp] theorem State.setGrid_flushes : (s.setGrid g x).flushes = s.flushes := rfl
@[simp] theorem State.setGrid_wovlHeld : (s.setGrid g x).wovlHeld = s.wovlHeld := rfl
@[simp] theorem State.setGrid_pwr : (s.setGrid g x).pwr = s.pwr := rfl
@[simp] theorem State.setGrid_plim : (s.setGrid g x).plim = s.plim := rfl
@[simp] theorem State.setGrid_clamp : (s.setGrid g x).clamp = s.clamp := rfl
@[simp] theorem State.setGrid_ecntDrop : (s.setGrid g x).ecntDrop = s.ecntDrop := rfl
@[simp] theorem State.setGrid_ecntLast : (s.setGrid g x).ecntLast = s.ecntLast := rfl
@[simp] theorem State.setGrid_ecntTrans : (s.setGrid g x).ecntTrans = s.ecntTrans := rfl
@[simp] theorem State.setGrid_badPages : (s.setGrid g x).badPages = s.badPages := rfl
@[simp] theorem State.setGrid_hostWins : (s.setGrid g x).hostWins = s.hostWins := rfl
@[simp] theorem State.setGrid_flash : (s.setGrid g x).flash = s.flash := rfl
@[simp] theorem State.setGrid_recovery : (s.setGrid g x).recovery = s.recovery := rfl
@[simp] theorem State.setGrid_badLinks : (s.setGrid g x).badLinks = s.badLinks := rfl
@[simp] theorem State.setGrid_badPorts : (s.setGrid g x).badPorts = s.badPorts := rfl
@[simp] theorem State.setGrid_badReduction : (s.setGrid g x).badReduction = s.badReduction := rfl
@[simp] theorem State.setGrid_badStacks : (s.setGrid g x).badStacks = s.badStacks := rfl
@[simp] theorem State.setGrid_lostTasks : (s.setGrid g x).lostTasks = s.lostTasks := rfl
end

/-! ### setCluster -/
section
variable (s : State) (c : Nat) (x : Cluster)
@[simp] theorem State.setCluster_cur : (s.setCluster c x).cur = s.cur := rfl
@[simp] theorem State.setCluster_agenda : (s.setCluster c x).agenda = s.agenda := rfl
@[simp] theorem State.setCluster_verdict : (s.setCluster c x).verdict = s.verdict := rfl
@[simp] theorem State.setCluster_inputs : (s.setCluster c x).inputs = s.inputs := rfl
@[simp] theorem State.setCluster_out : (s.setCluster c x).out = s.out := rfl
@[simp] theorem State.setCluster_draws : (s.setCluster c x).draws = s.draws := rfl
@[simp] theorem State.setCluster_home : (s.setCluster c x).home = s.home := rfl
@[simp] theorem State.setCluster_side : (s.setCluster c x).side = s.side := rfl
@[simp] theorem State.setCluster_scratch : (s.setCluster c x).scratch = s.scratch := rfl
@[simp] theorem State.setCluster_slotMem : (s.setCluster c x).slotMem = s.slotMem := rfl
@[simp] theorem State.setCluster_bankMem : (s.setCluster c x).bankMem = s.bankMem := rfl
@[simp] theorem State.setCluster_sideWriter : (s.setCluster c x).sideWriter = s.sideWriter := rfl
@[simp] theorem State.setCluster_scratchWriter : (s.setCluster c x).scratchWriter = s.scratchWriter := rfl
@[simp] theorem State.setCluster_ctxs : (s.setCluster c x).ctxs = s.ctxs := rfl
@[simp] theorem State.setCluster_prows : (s.setCluster c x).prows = s.prows := rfl
@[simp] theorem State.setCluster_grids : (s.setCluster c x).grids = s.grids := rfl
@[simp] theorem State.setCluster_clusters : (s.setCluster c x).clusters = Tables.set c x s.clusters := rfl
@[simp] theorem State.setCluster_cdies : (s.setCluster c x).cdies = s.cdies := rfl
@[simp] theorem State.setCluster_mdies : (s.setCluster c x).mdies = s.mdies := rfl
@[simp] theorem State.setCluster_blocks : (s.setCluster c x).blocks = s.blocks := rfl
@[simp] theorem State.setCluster_tasks : (s.setCluster c x).tasks = s.tasks := rfl
@[simp] theorem State.setCluster_replays : (s.setCluster c x).replays = s.replays := rfl
@[simp] theorem State.setCluster_slots : (s.setCluster c x).slots = s.slots := rfl
@[simp] theorem State.setCluster_funcs : (s.setCluster c x).funcs = s.funcs := rfl
@[simp] theorem State.setCluster_queues : (s.setCluster c x).queues = s.queues := rfl
@[simp] theorem State.setCluster_nextBlock : (s.setCluster c x).nextBlock = s.nextBlock := rfl
@[simp] theorem State.setCluster_nextTask : (s.setCluster c x).nextTask = s.nextTask := rfl
@[simp] theorem State.setCluster_nextReplay : (s.setCluster c x).nextReplay = s.nextReplay := rfl
@[simp] theorem State.setCluster_watchSerial : (s.setCluster c x).watchSerial = s.watchSerial := rfl
@[simp] theorem State.setCluster_wakes : (s.setCluster c x).wakes = s.wakes := rfl
@[simp] theorem State.setCluster_kickCount : (s.setCluster c x).kickCount = s.kickCount := rfl
@[simp] theorem State.setCluster_accId : (s.setCluster c x).accId = s.accId := rfl
@[simp] theorem State.setCluster_journal : (s.setCluster c x).journal = s.journal := rfl
@[simp] theorem State.setCluster_xclk : (s.setCluster c x).xclk = s.xclk := rfl
@[simp] theorem State.setCluster_xgated : (s.setCluster c x).xgated = s.xgated := rfl
@[simp] theorem State.setCluster_invoked : (s.setCluster c x).invoked = s.invoked := rfl
@[simp] theorem State.setCluster_sentTo : (s.setCluster c x).sentTo = s.sentTo := rfl
@[simp] theorem State.setCluster_retireWrites : (s.setCluster c x).retireWrites = s.retireWrites := rfl
@[simp] theorem State.setCluster_retained : (s.setCluster c x).retained = s.retained := rfl
@[simp] theorem State.setCluster_peerWrites : (s.setCluster c x).peerWrites = s.peerWrites := rfl
@[simp] theorem State.setCluster_peerNext : (s.setCluster c x).peerNext = s.peerNext := rfl
@[simp] theorem State.setCluster_heldBacks : (s.setCluster c x).heldBacks = s.heldBacks := rfl
@[simp] theorem State.setCluster_heldReqs : (s.setCluster c x).heldReqs = s.heldReqs := rfl
@[simp] theorem State.setCluster_fenceOrder : (s.setCluster c x).fenceOrder = s.fenceOrder := rfl
@[simp] theorem State.setCluster_ranges : (s.setCluster c x).ranges = s.ranges := rfl
@[simp] theorem State.setCluster_itable : (s.setCluster c x).itable = s.itable := rfl
@[simp] theorem State.setCluster_itmap : (s.setCluster c x).itmap = s.itmap := rfl
@[simp] theorem State.setCluster_itgen : (s.setCluster c x).itgen = s.itgen := rfl
@[simp] theorem State.setCluster_itbusy : (s.setCluster c x).itbusy = s.itbusy := rfl
@[simp] theorem State.setCluster_itstatus : (s.setCluster c x).itstatus = s.itstatus := rfl
@[simp] theorem State.setCluster_dsplit : (s.setCluster c x).dsplit = s.dsplit := rfl
@[simp] theorem State.setCluster_dsplitLocked : (s.setCluster c x).dsplitLocked = s.dsplitLocked := rfl
@[simp] theorem State.setCluster_flushes : (s.setCluster c x).flushes = s.flushes := rfl
@[simp] theorem State.setCluster_wovlHeld : (s.setCluster c x).wovlHeld = s.wovlHeld := rfl
@[simp] theorem State.setCluster_pwr : (s.setCluster c x).pwr = s.pwr := rfl
@[simp] theorem State.setCluster_plim : (s.setCluster c x).plim = s.plim := rfl
@[simp] theorem State.setCluster_clamp : (s.setCluster c x).clamp = s.clamp := rfl
@[simp] theorem State.setCluster_ecntDrop : (s.setCluster c x).ecntDrop = s.ecntDrop := rfl
@[simp] theorem State.setCluster_ecntLast : (s.setCluster c x).ecntLast = s.ecntLast := rfl
@[simp] theorem State.setCluster_ecntTrans : (s.setCluster c x).ecntTrans = s.ecntTrans := rfl
@[simp] theorem State.setCluster_badPages : (s.setCluster c x).badPages = s.badPages := rfl
@[simp] theorem State.setCluster_hostWins : (s.setCluster c x).hostWins = s.hostWins := rfl
@[simp] theorem State.setCluster_flash : (s.setCluster c x).flash = s.flash := rfl
@[simp] theorem State.setCluster_recovery : (s.setCluster c x).recovery = s.recovery := rfl
@[simp] theorem State.setCluster_badLinks : (s.setCluster c x).badLinks = s.badLinks := rfl
@[simp] theorem State.setCluster_badPorts : (s.setCluster c x).badPorts = s.badPorts := rfl
@[simp] theorem State.setCluster_badReduction : (s.setCluster c x).badReduction = s.badReduction := rfl
@[simp] theorem State.setCluster_badStacks : (s.setCluster c x).badStacks = s.badStacks := rfl
@[simp] theorem State.setCluster_lostTasks : (s.setCluster c x).lostTasks = s.lostTasks := rfl
end

/-! ### setCdie -/
section
variable (s : State) (d : Nat) (x : CDie)
@[simp] theorem State.setCdie_cur : (s.setCdie d x).cur = s.cur := rfl
@[simp] theorem State.setCdie_agenda : (s.setCdie d x).agenda = s.agenda := rfl
@[simp] theorem State.setCdie_verdict : (s.setCdie d x).verdict = s.verdict := rfl
@[simp] theorem State.setCdie_inputs : (s.setCdie d x).inputs = s.inputs := rfl
@[simp] theorem State.setCdie_out : (s.setCdie d x).out = s.out := rfl
@[simp] theorem State.setCdie_draws : (s.setCdie d x).draws = s.draws := rfl
@[simp] theorem State.setCdie_home : (s.setCdie d x).home = s.home := rfl
@[simp] theorem State.setCdie_side : (s.setCdie d x).side = s.side := rfl
@[simp] theorem State.setCdie_scratch : (s.setCdie d x).scratch = s.scratch := rfl
@[simp] theorem State.setCdie_slotMem : (s.setCdie d x).slotMem = s.slotMem := rfl
@[simp] theorem State.setCdie_bankMem : (s.setCdie d x).bankMem = s.bankMem := rfl
@[simp] theorem State.setCdie_sideWriter : (s.setCdie d x).sideWriter = s.sideWriter := rfl
@[simp] theorem State.setCdie_scratchWriter : (s.setCdie d x).scratchWriter = s.scratchWriter := rfl
@[simp] theorem State.setCdie_ctxs : (s.setCdie d x).ctxs = s.ctxs := rfl
@[simp] theorem State.setCdie_prows : (s.setCdie d x).prows = s.prows := rfl
@[simp] theorem State.setCdie_grids : (s.setCdie d x).grids = s.grids := rfl
@[simp] theorem State.setCdie_clusters : (s.setCdie d x).clusters = s.clusters := rfl
@[simp] theorem State.setCdie_cdies : (s.setCdie d x).cdies = Tables.set d x s.cdies := rfl
@[simp] theorem State.setCdie_mdies : (s.setCdie d x).mdies = s.mdies := rfl
@[simp] theorem State.setCdie_blocks : (s.setCdie d x).blocks = s.blocks := rfl
@[simp] theorem State.setCdie_tasks : (s.setCdie d x).tasks = s.tasks := rfl
@[simp] theorem State.setCdie_replays : (s.setCdie d x).replays = s.replays := rfl
@[simp] theorem State.setCdie_slots : (s.setCdie d x).slots = s.slots := rfl
@[simp] theorem State.setCdie_funcs : (s.setCdie d x).funcs = s.funcs := rfl
@[simp] theorem State.setCdie_queues : (s.setCdie d x).queues = s.queues := rfl
@[simp] theorem State.setCdie_nextBlock : (s.setCdie d x).nextBlock = s.nextBlock := rfl
@[simp] theorem State.setCdie_nextTask : (s.setCdie d x).nextTask = s.nextTask := rfl
@[simp] theorem State.setCdie_nextReplay : (s.setCdie d x).nextReplay = s.nextReplay := rfl
@[simp] theorem State.setCdie_watchSerial : (s.setCdie d x).watchSerial = s.watchSerial := rfl
@[simp] theorem State.setCdie_wakes : (s.setCdie d x).wakes = s.wakes := rfl
@[simp] theorem State.setCdie_kickCount : (s.setCdie d x).kickCount = s.kickCount := rfl
@[simp] theorem State.setCdie_accId : (s.setCdie d x).accId = s.accId := rfl
@[simp] theorem State.setCdie_journal : (s.setCdie d x).journal = s.journal := rfl
@[simp] theorem State.setCdie_xclk : (s.setCdie d x).xclk = s.xclk := rfl
@[simp] theorem State.setCdie_xgated : (s.setCdie d x).xgated = s.xgated := rfl
@[simp] theorem State.setCdie_invoked : (s.setCdie d x).invoked = s.invoked := rfl
@[simp] theorem State.setCdie_sentTo : (s.setCdie d x).sentTo = s.sentTo := rfl
@[simp] theorem State.setCdie_retireWrites : (s.setCdie d x).retireWrites = s.retireWrites := rfl
@[simp] theorem State.setCdie_retained : (s.setCdie d x).retained = s.retained := rfl
@[simp] theorem State.setCdie_peerWrites : (s.setCdie d x).peerWrites = s.peerWrites := rfl
@[simp] theorem State.setCdie_peerNext : (s.setCdie d x).peerNext = s.peerNext := rfl
@[simp] theorem State.setCdie_heldBacks : (s.setCdie d x).heldBacks = s.heldBacks := rfl
@[simp] theorem State.setCdie_heldReqs : (s.setCdie d x).heldReqs = s.heldReqs := rfl
@[simp] theorem State.setCdie_fenceOrder : (s.setCdie d x).fenceOrder = s.fenceOrder := rfl
@[simp] theorem State.setCdie_ranges : (s.setCdie d x).ranges = s.ranges := rfl
@[simp] theorem State.setCdie_itable : (s.setCdie d x).itable = s.itable := rfl
@[simp] theorem State.setCdie_itmap : (s.setCdie d x).itmap = s.itmap := rfl
@[simp] theorem State.setCdie_itgen : (s.setCdie d x).itgen = s.itgen := rfl
@[simp] theorem State.setCdie_itbusy : (s.setCdie d x).itbusy = s.itbusy := rfl
@[simp] theorem State.setCdie_itstatus : (s.setCdie d x).itstatus = s.itstatus := rfl
@[simp] theorem State.setCdie_dsplit : (s.setCdie d x).dsplit = s.dsplit := rfl
@[simp] theorem State.setCdie_dsplitLocked : (s.setCdie d x).dsplitLocked = s.dsplitLocked := rfl
@[simp] theorem State.setCdie_flushes : (s.setCdie d x).flushes = s.flushes := rfl
@[simp] theorem State.setCdie_wovlHeld : (s.setCdie d x).wovlHeld = s.wovlHeld := rfl
@[simp] theorem State.setCdie_pwr : (s.setCdie d x).pwr = s.pwr := rfl
@[simp] theorem State.setCdie_plim : (s.setCdie d x).plim = s.plim := rfl
@[simp] theorem State.setCdie_clamp : (s.setCdie d x).clamp = s.clamp := rfl
@[simp] theorem State.setCdie_ecntDrop : (s.setCdie d x).ecntDrop = s.ecntDrop := rfl
@[simp] theorem State.setCdie_ecntLast : (s.setCdie d x).ecntLast = s.ecntLast := rfl
@[simp] theorem State.setCdie_ecntTrans : (s.setCdie d x).ecntTrans = s.ecntTrans := rfl
@[simp] theorem State.setCdie_badPages : (s.setCdie d x).badPages = s.badPages := rfl
@[simp] theorem State.setCdie_hostWins : (s.setCdie d x).hostWins = s.hostWins := rfl
@[simp] theorem State.setCdie_flash : (s.setCdie d x).flash = s.flash := rfl
@[simp] theorem State.setCdie_recovery : (s.setCdie d x).recovery = s.recovery := rfl
@[simp] theorem State.setCdie_badLinks : (s.setCdie d x).badLinks = s.badLinks := rfl
@[simp] theorem State.setCdie_badPorts : (s.setCdie d x).badPorts = s.badPorts := rfl
@[simp] theorem State.setCdie_badReduction : (s.setCdie d x).badReduction = s.badReduction := rfl
@[simp] theorem State.setCdie_badStacks : (s.setCdie d x).badStacks = s.badStacks := rfl
@[simp] theorem State.setCdie_lostTasks : (s.setCdie d x).lostTasks = s.lostTasks := rfl
end

/-! ### setMdie -/
section
variable (s : State) (m : Nat) (x : MDie)
@[simp] theorem State.setMdie_cur : (s.setMdie m x).cur = s.cur := rfl
@[simp] theorem State.setMdie_agenda : (s.setMdie m x).agenda = s.agenda := rfl
@[simp] theorem State.setMdie_verdict : (s.setMdie m x).verdict = s.verdict := rfl
@[simp] theorem State.setMdie_inputs : (s.setMdie m x).inputs = s.inputs := rfl
@[simp] theorem State.setMdie_out : (s.setMdie m x).out = s.out := rfl
@[simp] theorem State.setMdie_draws : (s.setMdie m x).draws = s.draws := rfl
@[simp] theorem State.setMdie_home : (s.setMdie m x).home = s.home := rfl
@[simp] theorem State.setMdie_side : (s.setMdie m x).side = s.side := rfl
@[simp] theorem State.setMdie_scratch : (s.setMdie m x).scratch = s.scratch := rfl
@[simp] theorem State.setMdie_slotMem : (s.setMdie m x).slotMem = s.slotMem := rfl
@[simp] theorem State.setMdie_bankMem : (s.setMdie m x).bankMem = s.bankMem := rfl
@[simp] theorem State.setMdie_sideWriter : (s.setMdie m x).sideWriter = s.sideWriter := rfl
@[simp] theorem State.setMdie_scratchWriter : (s.setMdie m x).scratchWriter = s.scratchWriter := rfl
@[simp] theorem State.setMdie_ctxs : (s.setMdie m x).ctxs = s.ctxs := rfl
@[simp] theorem State.setMdie_prows : (s.setMdie m x).prows = s.prows := rfl
@[simp] theorem State.setMdie_grids : (s.setMdie m x).grids = s.grids := rfl
@[simp] theorem State.setMdie_clusters : (s.setMdie m x).clusters = s.clusters := rfl
@[simp] theorem State.setMdie_cdies : (s.setMdie m x).cdies = s.cdies := rfl
@[simp] theorem State.setMdie_mdies : (s.setMdie m x).mdies = Tables.set m x s.mdies := rfl
@[simp] theorem State.setMdie_blocks : (s.setMdie m x).blocks = s.blocks := rfl
@[simp] theorem State.setMdie_tasks : (s.setMdie m x).tasks = s.tasks := rfl
@[simp] theorem State.setMdie_replays : (s.setMdie m x).replays = s.replays := rfl
@[simp] theorem State.setMdie_slots : (s.setMdie m x).slots = s.slots := rfl
@[simp] theorem State.setMdie_funcs : (s.setMdie m x).funcs = s.funcs := rfl
@[simp] theorem State.setMdie_queues : (s.setMdie m x).queues = s.queues := rfl
@[simp] theorem State.setMdie_nextBlock : (s.setMdie m x).nextBlock = s.nextBlock := rfl
@[simp] theorem State.setMdie_nextTask : (s.setMdie m x).nextTask = s.nextTask := rfl
@[simp] theorem State.setMdie_nextReplay : (s.setMdie m x).nextReplay = s.nextReplay := rfl
@[simp] theorem State.setMdie_watchSerial : (s.setMdie m x).watchSerial = s.watchSerial := rfl
@[simp] theorem State.setMdie_wakes : (s.setMdie m x).wakes = s.wakes := rfl
@[simp] theorem State.setMdie_kickCount : (s.setMdie m x).kickCount = s.kickCount := rfl
@[simp] theorem State.setMdie_accId : (s.setMdie m x).accId = s.accId := rfl
@[simp] theorem State.setMdie_journal : (s.setMdie m x).journal = s.journal := rfl
@[simp] theorem State.setMdie_xclk : (s.setMdie m x).xclk = s.xclk := rfl
@[simp] theorem State.setMdie_xgated : (s.setMdie m x).xgated = s.xgated := rfl
@[simp] theorem State.setMdie_invoked : (s.setMdie m x).invoked = s.invoked := rfl
@[simp] theorem State.setMdie_sentTo : (s.setMdie m x).sentTo = s.sentTo := rfl
@[simp] theorem State.setMdie_retireWrites : (s.setMdie m x).retireWrites = s.retireWrites := rfl
@[simp] theorem State.setMdie_retained : (s.setMdie m x).retained = s.retained := rfl
@[simp] theorem State.setMdie_peerWrites : (s.setMdie m x).peerWrites = s.peerWrites := rfl
@[simp] theorem State.setMdie_peerNext : (s.setMdie m x).peerNext = s.peerNext := rfl
@[simp] theorem State.setMdie_heldBacks : (s.setMdie m x).heldBacks = s.heldBacks := rfl
@[simp] theorem State.setMdie_heldReqs : (s.setMdie m x).heldReqs = s.heldReqs := rfl
@[simp] theorem State.setMdie_fenceOrder : (s.setMdie m x).fenceOrder = s.fenceOrder := rfl
@[simp] theorem State.setMdie_ranges : (s.setMdie m x).ranges = s.ranges := rfl
@[simp] theorem State.setMdie_itable : (s.setMdie m x).itable = s.itable := rfl
@[simp] theorem State.setMdie_itmap : (s.setMdie m x).itmap = s.itmap := rfl
@[simp] theorem State.setMdie_itgen : (s.setMdie m x).itgen = s.itgen := rfl
@[simp] theorem State.setMdie_itbusy : (s.setMdie m x).itbusy = s.itbusy := rfl
@[simp] theorem State.setMdie_itstatus : (s.setMdie m x).itstatus = s.itstatus := rfl
@[simp] theorem State.setMdie_dsplit : (s.setMdie m x).dsplit = s.dsplit := rfl
@[simp] theorem State.setMdie_dsplitLocked : (s.setMdie m x).dsplitLocked = s.dsplitLocked := rfl
@[simp] theorem State.setMdie_flushes : (s.setMdie m x).flushes = s.flushes := rfl
@[simp] theorem State.setMdie_wovlHeld : (s.setMdie m x).wovlHeld = s.wovlHeld := rfl
@[simp] theorem State.setMdie_pwr : (s.setMdie m x).pwr = s.pwr := rfl
@[simp] theorem State.setMdie_plim : (s.setMdie m x).plim = s.plim := rfl
@[simp] theorem State.setMdie_clamp : (s.setMdie m x).clamp = s.clamp := rfl
@[simp] theorem State.setMdie_ecntDrop : (s.setMdie m x).ecntDrop = s.ecntDrop := rfl
@[simp] theorem State.setMdie_ecntLast : (s.setMdie m x).ecntLast = s.ecntLast := rfl
@[simp] theorem State.setMdie_ecntTrans : (s.setMdie m x).ecntTrans = s.ecntTrans := rfl
@[simp] theorem State.setMdie_badPages : (s.setMdie m x).badPages = s.badPages := rfl
@[simp] theorem State.setMdie_hostWins : (s.setMdie m x).hostWins = s.hostWins := rfl
@[simp] theorem State.setMdie_flash : (s.setMdie m x).flash = s.flash := rfl
@[simp] theorem State.setMdie_recovery : (s.setMdie m x).recovery = s.recovery := rfl
@[simp] theorem State.setMdie_badLinks : (s.setMdie m x).badLinks = s.badLinks := rfl
@[simp] theorem State.setMdie_badPorts : (s.setMdie m x).badPorts = s.badPorts := rfl
@[simp] theorem State.setMdie_badReduction : (s.setMdie m x).badReduction = s.badReduction := rfl
@[simp] theorem State.setMdie_badStacks : (s.setMdie m x).badStacks = s.badStacks := rfl
@[simp] theorem State.setMdie_lostTasks : (s.setMdie m x).lostTasks = s.lostTasks := rfl
end

/-! ### setBlock -/
section
variable (s : State) (b : Nat) (x : Block)
@[simp] theorem State.setBlock_cur : (s.setBlock b x).cur = s.cur := rfl
@[simp] theorem State.setBlock_agenda : (s.setBlock b x).agenda = s.agenda := rfl
@[simp] theorem State.setBlock_verdict : (s.setBlock b x).verdict = s.verdict := rfl
@[simp] theorem State.setBlock_inputs : (s.setBlock b x).inputs = s.inputs := rfl
@[simp] theorem State.setBlock_out : (s.setBlock b x).out = s.out := rfl
@[simp] theorem State.setBlock_draws : (s.setBlock b x).draws = s.draws := rfl
@[simp] theorem State.setBlock_home : (s.setBlock b x).home = s.home := rfl
@[simp] theorem State.setBlock_side : (s.setBlock b x).side = s.side := rfl
@[simp] theorem State.setBlock_scratch : (s.setBlock b x).scratch = s.scratch := rfl
@[simp] theorem State.setBlock_slotMem : (s.setBlock b x).slotMem = s.slotMem := rfl
@[simp] theorem State.setBlock_bankMem : (s.setBlock b x).bankMem = s.bankMem := rfl
@[simp] theorem State.setBlock_sideWriter : (s.setBlock b x).sideWriter = s.sideWriter := rfl
@[simp] theorem State.setBlock_scratchWriter : (s.setBlock b x).scratchWriter = s.scratchWriter := rfl
@[simp] theorem State.setBlock_ctxs : (s.setBlock b x).ctxs = s.ctxs := rfl
@[simp] theorem State.setBlock_prows : (s.setBlock b x).prows = s.prows := rfl
@[simp] theorem State.setBlock_grids : (s.setBlock b x).grids = s.grids := rfl
@[simp] theorem State.setBlock_clusters : (s.setBlock b x).clusters = s.clusters := rfl
@[simp] theorem State.setBlock_cdies : (s.setBlock b x).cdies = s.cdies := rfl
@[simp] theorem State.setBlock_mdies : (s.setBlock b x).mdies = s.mdies := rfl
@[simp] theorem State.setBlock_blocks : (s.setBlock b x).blocks = Tables.set b x s.blocks := rfl
@[simp] theorem State.setBlock_tasks : (s.setBlock b x).tasks = s.tasks := rfl
@[simp] theorem State.setBlock_replays : (s.setBlock b x).replays = s.replays := rfl
@[simp] theorem State.setBlock_slots : (s.setBlock b x).slots = s.slots := rfl
@[simp] theorem State.setBlock_funcs : (s.setBlock b x).funcs = s.funcs := rfl
@[simp] theorem State.setBlock_queues : (s.setBlock b x).queues = s.queues := rfl
@[simp] theorem State.setBlock_nextBlock : (s.setBlock b x).nextBlock = s.nextBlock := rfl
@[simp] theorem State.setBlock_nextTask : (s.setBlock b x).nextTask = s.nextTask := rfl
@[simp] theorem State.setBlock_nextReplay : (s.setBlock b x).nextReplay = s.nextReplay := rfl
@[simp] theorem State.setBlock_watchSerial : (s.setBlock b x).watchSerial = s.watchSerial := rfl
@[simp] theorem State.setBlock_wakes : (s.setBlock b x).wakes = s.wakes := rfl
@[simp] theorem State.setBlock_kickCount : (s.setBlock b x).kickCount = s.kickCount := rfl
@[simp] theorem State.setBlock_accId : (s.setBlock b x).accId = s.accId := rfl
@[simp] theorem State.setBlock_journal : (s.setBlock b x).journal = s.journal := rfl
@[simp] theorem State.setBlock_xclk : (s.setBlock b x).xclk = s.xclk := rfl
@[simp] theorem State.setBlock_xgated : (s.setBlock b x).xgated = s.xgated := rfl
@[simp] theorem State.setBlock_invoked : (s.setBlock b x).invoked = s.invoked := rfl
@[simp] theorem State.setBlock_sentTo : (s.setBlock b x).sentTo = s.sentTo := rfl
@[simp] theorem State.setBlock_retireWrites : (s.setBlock b x).retireWrites = s.retireWrites := rfl
@[simp] theorem State.setBlock_retained : (s.setBlock b x).retained = s.retained := rfl
@[simp] theorem State.setBlock_peerWrites : (s.setBlock b x).peerWrites = s.peerWrites := rfl
@[simp] theorem State.setBlock_peerNext : (s.setBlock b x).peerNext = s.peerNext := rfl
@[simp] theorem State.setBlock_heldBacks : (s.setBlock b x).heldBacks = s.heldBacks := rfl
@[simp] theorem State.setBlock_heldReqs : (s.setBlock b x).heldReqs = s.heldReqs := rfl
@[simp] theorem State.setBlock_fenceOrder : (s.setBlock b x).fenceOrder = s.fenceOrder := rfl
@[simp] theorem State.setBlock_ranges : (s.setBlock b x).ranges = s.ranges := rfl
@[simp] theorem State.setBlock_itable : (s.setBlock b x).itable = s.itable := rfl
@[simp] theorem State.setBlock_itmap : (s.setBlock b x).itmap = s.itmap := rfl
@[simp] theorem State.setBlock_itgen : (s.setBlock b x).itgen = s.itgen := rfl
@[simp] theorem State.setBlock_itbusy : (s.setBlock b x).itbusy = s.itbusy := rfl
@[simp] theorem State.setBlock_itstatus : (s.setBlock b x).itstatus = s.itstatus := rfl
@[simp] theorem State.setBlock_dsplit : (s.setBlock b x).dsplit = s.dsplit := rfl
@[simp] theorem State.setBlock_dsplitLocked : (s.setBlock b x).dsplitLocked = s.dsplitLocked := rfl
@[simp] theorem State.setBlock_flushes : (s.setBlock b x).flushes = s.flushes := rfl
@[simp] theorem State.setBlock_wovlHeld : (s.setBlock b x).wovlHeld = s.wovlHeld := rfl
@[simp] theorem State.setBlock_pwr : (s.setBlock b x).pwr = s.pwr := rfl
@[simp] theorem State.setBlock_plim : (s.setBlock b x).plim = s.plim := rfl
@[simp] theorem State.setBlock_clamp : (s.setBlock b x).clamp = s.clamp := rfl
@[simp] theorem State.setBlock_ecntDrop : (s.setBlock b x).ecntDrop = s.ecntDrop := rfl
@[simp] theorem State.setBlock_ecntLast : (s.setBlock b x).ecntLast = s.ecntLast := rfl
@[simp] theorem State.setBlock_ecntTrans : (s.setBlock b x).ecntTrans = s.ecntTrans := rfl
@[simp] theorem State.setBlock_badPages : (s.setBlock b x).badPages = s.badPages := rfl
@[simp] theorem State.setBlock_hostWins : (s.setBlock b x).hostWins = s.hostWins := rfl
@[simp] theorem State.setBlock_flash : (s.setBlock b x).flash = s.flash := rfl
@[simp] theorem State.setBlock_recovery : (s.setBlock b x).recovery = s.recovery := rfl
@[simp] theorem State.setBlock_badLinks : (s.setBlock b x).badLinks = s.badLinks := rfl
@[simp] theorem State.setBlock_badPorts : (s.setBlock b x).badPorts = s.badPorts := rfl
@[simp] theorem State.setBlock_badReduction : (s.setBlock b x).badReduction = s.badReduction := rfl
@[simp] theorem State.setBlock_badStacks : (s.setBlock b x).badStacks = s.badStacks := rfl
@[simp] theorem State.setBlock_lostTasks : (s.setBlock b x).lostTasks = s.lostTasks := rfl
end

/-! ### setTask -/
section
variable (s : State) (t : Nat) (x : Task)
@[simp] theorem State.setTask_cur : (s.setTask t x).cur = s.cur := rfl
@[simp] theorem State.setTask_agenda : (s.setTask t x).agenda = s.agenda := rfl
@[simp] theorem State.setTask_verdict : (s.setTask t x).verdict = s.verdict := rfl
@[simp] theorem State.setTask_inputs : (s.setTask t x).inputs = s.inputs := rfl
@[simp] theorem State.setTask_out : (s.setTask t x).out = s.out := rfl
@[simp] theorem State.setTask_draws : (s.setTask t x).draws = s.draws := rfl
@[simp] theorem State.setTask_home : (s.setTask t x).home = s.home := rfl
@[simp] theorem State.setTask_side : (s.setTask t x).side = s.side := rfl
@[simp] theorem State.setTask_scratch : (s.setTask t x).scratch = s.scratch := rfl
@[simp] theorem State.setTask_slotMem : (s.setTask t x).slotMem = s.slotMem := rfl
@[simp] theorem State.setTask_bankMem : (s.setTask t x).bankMem = s.bankMem := rfl
@[simp] theorem State.setTask_sideWriter : (s.setTask t x).sideWriter = s.sideWriter := rfl
@[simp] theorem State.setTask_scratchWriter : (s.setTask t x).scratchWriter = s.scratchWriter := rfl
@[simp] theorem State.setTask_ctxs : (s.setTask t x).ctxs = s.ctxs := rfl
@[simp] theorem State.setTask_prows : (s.setTask t x).prows = s.prows := rfl
@[simp] theorem State.setTask_grids : (s.setTask t x).grids = s.grids := rfl
@[simp] theorem State.setTask_clusters : (s.setTask t x).clusters = s.clusters := rfl
@[simp] theorem State.setTask_cdies : (s.setTask t x).cdies = s.cdies := rfl
@[simp] theorem State.setTask_mdies : (s.setTask t x).mdies = s.mdies := rfl
@[simp] theorem State.setTask_blocks : (s.setTask t x).blocks = s.blocks := rfl
@[simp] theorem State.setTask_tasks : (s.setTask t x).tasks = Tables.set t x s.tasks := rfl
@[simp] theorem State.setTask_replays : (s.setTask t x).replays = s.replays := rfl
@[simp] theorem State.setTask_slots : (s.setTask t x).slots = s.slots := rfl
@[simp] theorem State.setTask_funcs : (s.setTask t x).funcs = s.funcs := rfl
@[simp] theorem State.setTask_queues : (s.setTask t x).queues = s.queues := rfl
@[simp] theorem State.setTask_nextBlock : (s.setTask t x).nextBlock = s.nextBlock := rfl
@[simp] theorem State.setTask_nextTask : (s.setTask t x).nextTask = s.nextTask := rfl
@[simp] theorem State.setTask_nextReplay : (s.setTask t x).nextReplay = s.nextReplay := rfl
@[simp] theorem State.setTask_watchSerial : (s.setTask t x).watchSerial = s.watchSerial := rfl
@[simp] theorem State.setTask_wakes : (s.setTask t x).wakes = s.wakes := rfl
@[simp] theorem State.setTask_kickCount : (s.setTask t x).kickCount = s.kickCount := rfl
@[simp] theorem State.setTask_accId : (s.setTask t x).accId = s.accId := rfl
@[simp] theorem State.setTask_journal : (s.setTask t x).journal = s.journal := rfl
@[simp] theorem State.setTask_xclk : (s.setTask t x).xclk = s.xclk := rfl
@[simp] theorem State.setTask_xgated : (s.setTask t x).xgated = s.xgated := rfl
@[simp] theorem State.setTask_invoked : (s.setTask t x).invoked = s.invoked := rfl
@[simp] theorem State.setTask_sentTo : (s.setTask t x).sentTo = s.sentTo := rfl
@[simp] theorem State.setTask_retireWrites : (s.setTask t x).retireWrites = s.retireWrites := rfl
@[simp] theorem State.setTask_retained : (s.setTask t x).retained = s.retained := rfl
@[simp] theorem State.setTask_peerWrites : (s.setTask t x).peerWrites = s.peerWrites := rfl
@[simp] theorem State.setTask_peerNext : (s.setTask t x).peerNext = s.peerNext := rfl
@[simp] theorem State.setTask_heldBacks : (s.setTask t x).heldBacks = s.heldBacks := rfl
@[simp] theorem State.setTask_heldReqs : (s.setTask t x).heldReqs = s.heldReqs := rfl
@[simp] theorem State.setTask_fenceOrder : (s.setTask t x).fenceOrder = s.fenceOrder := rfl
@[simp] theorem State.setTask_ranges : (s.setTask t x).ranges = s.ranges := rfl
@[simp] theorem State.setTask_itable : (s.setTask t x).itable = s.itable := rfl
@[simp] theorem State.setTask_itmap : (s.setTask t x).itmap = s.itmap := rfl
@[simp] theorem State.setTask_itgen : (s.setTask t x).itgen = s.itgen := rfl
@[simp] theorem State.setTask_itbusy : (s.setTask t x).itbusy = s.itbusy := rfl
@[simp] theorem State.setTask_itstatus : (s.setTask t x).itstatus = s.itstatus := rfl
@[simp] theorem State.setTask_dsplit : (s.setTask t x).dsplit = s.dsplit := rfl
@[simp] theorem State.setTask_dsplitLocked : (s.setTask t x).dsplitLocked = s.dsplitLocked := rfl
@[simp] theorem State.setTask_flushes : (s.setTask t x).flushes = s.flushes := rfl
@[simp] theorem State.setTask_wovlHeld : (s.setTask t x).wovlHeld = s.wovlHeld := rfl
@[simp] theorem State.setTask_pwr : (s.setTask t x).pwr = s.pwr := rfl
@[simp] theorem State.setTask_plim : (s.setTask t x).plim = s.plim := rfl
@[simp] theorem State.setTask_clamp : (s.setTask t x).clamp = s.clamp := rfl
@[simp] theorem State.setTask_ecntDrop : (s.setTask t x).ecntDrop = s.ecntDrop := rfl
@[simp] theorem State.setTask_ecntLast : (s.setTask t x).ecntLast = s.ecntLast := rfl
@[simp] theorem State.setTask_ecntTrans : (s.setTask t x).ecntTrans = s.ecntTrans := rfl
@[simp] theorem State.setTask_badPages : (s.setTask t x).badPages = s.badPages := rfl
@[simp] theorem State.setTask_hostWins : (s.setTask t x).hostWins = s.hostWins := rfl
@[simp] theorem State.setTask_flash : (s.setTask t x).flash = s.flash := rfl
@[simp] theorem State.setTask_recovery : (s.setTask t x).recovery = s.recovery := rfl
@[simp] theorem State.setTask_badLinks : (s.setTask t x).badLinks = s.badLinks := rfl
@[simp] theorem State.setTask_badPorts : (s.setTask t x).badPorts = s.badPorts := rfl
@[simp] theorem State.setTask_badReduction : (s.setTask t x).badReduction = s.badReduction := rfl
@[simp] theorem State.setTask_badStacks : (s.setTask t x).badStacks = s.badStacks := rfl
@[simp] theorem State.setTask_lostTasks : (s.setTask t x).lostTasks = s.lostTasks := rfl
end

/-! ### setReplay -/
section
variable (s : State) (r : Nat) (x : Replay)
@[simp] theorem State.setReplay_cur : (s.setReplay r x).cur = s.cur := rfl
@[simp] theorem State.setReplay_agenda : (s.setReplay r x).agenda = s.agenda := rfl
@[simp] theorem State.setReplay_verdict : (s.setReplay r x).verdict = s.verdict := rfl
@[simp] theorem State.setReplay_inputs : (s.setReplay r x).inputs = s.inputs := rfl
@[simp] theorem State.setReplay_out : (s.setReplay r x).out = s.out := rfl
@[simp] theorem State.setReplay_draws : (s.setReplay r x).draws = s.draws := rfl
@[simp] theorem State.setReplay_home : (s.setReplay r x).home = s.home := rfl
@[simp] theorem State.setReplay_side : (s.setReplay r x).side = s.side := rfl
@[simp] theorem State.setReplay_scratch : (s.setReplay r x).scratch = s.scratch := rfl
@[simp] theorem State.setReplay_slotMem : (s.setReplay r x).slotMem = s.slotMem := rfl
@[simp] theorem State.setReplay_bankMem : (s.setReplay r x).bankMem = s.bankMem := rfl
@[simp] theorem State.setReplay_sideWriter : (s.setReplay r x).sideWriter = s.sideWriter := rfl
@[simp] theorem State.setReplay_scratchWriter : (s.setReplay r x).scratchWriter = s.scratchWriter := rfl
@[simp] theorem State.setReplay_ctxs : (s.setReplay r x).ctxs = s.ctxs := rfl
@[simp] theorem State.setReplay_prows : (s.setReplay r x).prows = s.prows := rfl
@[simp] theorem State.setReplay_grids : (s.setReplay r x).grids = s.grids := rfl
@[simp] theorem State.setReplay_clusters : (s.setReplay r x).clusters = s.clusters := rfl
@[simp] theorem State.setReplay_cdies : (s.setReplay r x).cdies = s.cdies := rfl
@[simp] theorem State.setReplay_mdies : (s.setReplay r x).mdies = s.mdies := rfl
@[simp] theorem State.setReplay_blocks : (s.setReplay r x).blocks = s.blocks := rfl
@[simp] theorem State.setReplay_tasks : (s.setReplay r x).tasks = s.tasks := rfl
@[simp] theorem State.setReplay_replays : (s.setReplay r x).replays = Tables.set r x s.replays := rfl
@[simp] theorem State.setReplay_slots : (s.setReplay r x).slots = s.slots := rfl
@[simp] theorem State.setReplay_funcs : (s.setReplay r x).funcs = s.funcs := rfl
@[simp] theorem State.setReplay_queues : (s.setReplay r x).queues = s.queues := rfl
@[simp] theorem State.setReplay_nextBlock : (s.setReplay r x).nextBlock = s.nextBlock := rfl
@[simp] theorem State.setReplay_nextTask : (s.setReplay r x).nextTask = s.nextTask := rfl
@[simp] theorem State.setReplay_nextReplay : (s.setReplay r x).nextReplay = s.nextReplay := rfl
@[simp] theorem State.setReplay_watchSerial : (s.setReplay r x).watchSerial = s.watchSerial := rfl
@[simp] theorem State.setReplay_wakes : (s.setReplay r x).wakes = s.wakes := rfl
@[simp] theorem State.setReplay_kickCount : (s.setReplay r x).kickCount = s.kickCount := rfl
@[simp] theorem State.setReplay_accId : (s.setReplay r x).accId = s.accId := rfl
@[simp] theorem State.setReplay_journal : (s.setReplay r x).journal = s.journal := rfl
@[simp] theorem State.setReplay_xclk : (s.setReplay r x).xclk = s.xclk := rfl
@[simp] theorem State.setReplay_xgated : (s.setReplay r x).xgated = s.xgated := rfl
@[simp] theorem State.setReplay_invoked : (s.setReplay r x).invoked = s.invoked := rfl
@[simp] theorem State.setReplay_sentTo : (s.setReplay r x).sentTo = s.sentTo := rfl
@[simp] theorem State.setReplay_retireWrites : (s.setReplay r x).retireWrites = s.retireWrites := rfl
@[simp] theorem State.setReplay_retained : (s.setReplay r x).retained = s.retained := rfl
@[simp] theorem State.setReplay_peerWrites : (s.setReplay r x).peerWrites = s.peerWrites := rfl
@[simp] theorem State.setReplay_peerNext : (s.setReplay r x).peerNext = s.peerNext := rfl
@[simp] theorem State.setReplay_heldBacks : (s.setReplay r x).heldBacks = s.heldBacks := rfl
@[simp] theorem State.setReplay_heldReqs : (s.setReplay r x).heldReqs = s.heldReqs := rfl
@[simp] theorem State.setReplay_fenceOrder : (s.setReplay r x).fenceOrder = s.fenceOrder := rfl
@[simp] theorem State.setReplay_ranges : (s.setReplay r x).ranges = s.ranges := rfl
@[simp] theorem State.setReplay_itable : (s.setReplay r x).itable = s.itable := rfl
@[simp] theorem State.setReplay_itmap : (s.setReplay r x).itmap = s.itmap := rfl
@[simp] theorem State.setReplay_itgen : (s.setReplay r x).itgen = s.itgen := rfl
@[simp] theorem State.setReplay_itbusy : (s.setReplay r x).itbusy = s.itbusy := rfl
@[simp] theorem State.setReplay_itstatus : (s.setReplay r x).itstatus = s.itstatus := rfl
@[simp] theorem State.setReplay_dsplit : (s.setReplay r x).dsplit = s.dsplit := rfl
@[simp] theorem State.setReplay_dsplitLocked : (s.setReplay r x).dsplitLocked = s.dsplitLocked := rfl
@[simp] theorem State.setReplay_flushes : (s.setReplay r x).flushes = s.flushes := rfl
@[simp] theorem State.setReplay_wovlHeld : (s.setReplay r x).wovlHeld = s.wovlHeld := rfl
@[simp] theorem State.setReplay_pwr : (s.setReplay r x).pwr = s.pwr := rfl
@[simp] theorem State.setReplay_plim : (s.setReplay r x).plim = s.plim := rfl
@[simp] theorem State.setReplay_clamp : (s.setReplay r x).clamp = s.clamp := rfl
@[simp] theorem State.setReplay_ecntDrop : (s.setReplay r x).ecntDrop = s.ecntDrop := rfl
@[simp] theorem State.setReplay_ecntLast : (s.setReplay r x).ecntLast = s.ecntLast := rfl
@[simp] theorem State.setReplay_ecntTrans : (s.setReplay r x).ecntTrans = s.ecntTrans := rfl
@[simp] theorem State.setReplay_badPages : (s.setReplay r x).badPages = s.badPages := rfl
@[simp] theorem State.setReplay_hostWins : (s.setReplay r x).hostWins = s.hostWins := rfl
@[simp] theorem State.setReplay_flash : (s.setReplay r x).flash = s.flash := rfl
@[simp] theorem State.setReplay_recovery : (s.setReplay r x).recovery = s.recovery := rfl
@[simp] theorem State.setReplay_badLinks : (s.setReplay r x).badLinks = s.badLinks := rfl
@[simp] theorem State.setReplay_badPorts : (s.setReplay r x).badPorts = s.badPorts := rfl
@[simp] theorem State.setReplay_badReduction : (s.setReplay r x).badReduction = s.badReduction := rfl
@[simp] theorem State.setReplay_badStacks : (s.setReplay r x).badStacks = s.badStacks := rfl
@[simp] theorem State.setReplay_lostTasks : (s.setReplay r x).lostTasks = s.lostTasks := rfl
end

/-! ### setSlot -/
section
variable (s : State) (n : Nat) (x : Slot)
@[simp] theorem State.setSlot_cur : (s.setSlot n x).cur = s.cur := rfl
@[simp] theorem State.setSlot_agenda : (s.setSlot n x).agenda = s.agenda := rfl
@[simp] theorem State.setSlot_verdict : (s.setSlot n x).verdict = s.verdict := rfl
@[simp] theorem State.setSlot_inputs : (s.setSlot n x).inputs = s.inputs := rfl
@[simp] theorem State.setSlot_out : (s.setSlot n x).out = s.out := rfl
@[simp] theorem State.setSlot_draws : (s.setSlot n x).draws = s.draws := rfl
@[simp] theorem State.setSlot_home : (s.setSlot n x).home = s.home := rfl
@[simp] theorem State.setSlot_side : (s.setSlot n x).side = s.side := rfl
@[simp] theorem State.setSlot_scratch : (s.setSlot n x).scratch = s.scratch := rfl
@[simp] theorem State.setSlot_slotMem : (s.setSlot n x).slotMem = s.slotMem := rfl
@[simp] theorem State.setSlot_bankMem : (s.setSlot n x).bankMem = s.bankMem := rfl
@[simp] theorem State.setSlot_sideWriter : (s.setSlot n x).sideWriter = s.sideWriter := rfl
@[simp] theorem State.setSlot_scratchWriter : (s.setSlot n x).scratchWriter = s.scratchWriter := rfl
@[simp] theorem State.setSlot_ctxs : (s.setSlot n x).ctxs = s.ctxs := rfl
@[simp] theorem State.setSlot_prows : (s.setSlot n x).prows = s.prows := rfl
@[simp] theorem State.setSlot_grids : (s.setSlot n x).grids = s.grids := rfl
@[simp] theorem State.setSlot_clusters : (s.setSlot n x).clusters = s.clusters := rfl
@[simp] theorem State.setSlot_cdies : (s.setSlot n x).cdies = s.cdies := rfl
@[simp] theorem State.setSlot_mdies : (s.setSlot n x).mdies = s.mdies := rfl
@[simp] theorem State.setSlot_blocks : (s.setSlot n x).blocks = s.blocks := rfl
@[simp] theorem State.setSlot_tasks : (s.setSlot n x).tasks = s.tasks := rfl
@[simp] theorem State.setSlot_replays : (s.setSlot n x).replays = s.replays := rfl
@[simp] theorem State.setSlot_slots : (s.setSlot n x).slots = Tables.set n x s.slots := rfl
@[simp] theorem State.setSlot_funcs : (s.setSlot n x).funcs = s.funcs := rfl
@[simp] theorem State.setSlot_queues : (s.setSlot n x).queues = s.queues := rfl
@[simp] theorem State.setSlot_nextBlock : (s.setSlot n x).nextBlock = s.nextBlock := rfl
@[simp] theorem State.setSlot_nextTask : (s.setSlot n x).nextTask = s.nextTask := rfl
@[simp] theorem State.setSlot_nextReplay : (s.setSlot n x).nextReplay = s.nextReplay := rfl
@[simp] theorem State.setSlot_watchSerial : (s.setSlot n x).watchSerial = s.watchSerial := rfl
@[simp] theorem State.setSlot_wakes : (s.setSlot n x).wakes = s.wakes := rfl
@[simp] theorem State.setSlot_kickCount : (s.setSlot n x).kickCount = s.kickCount := rfl
@[simp] theorem State.setSlot_accId : (s.setSlot n x).accId = s.accId := rfl
@[simp] theorem State.setSlot_journal : (s.setSlot n x).journal = s.journal := rfl
@[simp] theorem State.setSlot_xclk : (s.setSlot n x).xclk = s.xclk := rfl
@[simp] theorem State.setSlot_xgated : (s.setSlot n x).xgated = s.xgated := rfl
@[simp] theorem State.setSlot_invoked : (s.setSlot n x).invoked = s.invoked := rfl
@[simp] theorem State.setSlot_sentTo : (s.setSlot n x).sentTo = s.sentTo := rfl
@[simp] theorem State.setSlot_retireWrites : (s.setSlot n x).retireWrites = s.retireWrites := rfl
@[simp] theorem State.setSlot_retained : (s.setSlot n x).retained = s.retained := rfl
@[simp] theorem State.setSlot_peerWrites : (s.setSlot n x).peerWrites = s.peerWrites := rfl
@[simp] theorem State.setSlot_peerNext : (s.setSlot n x).peerNext = s.peerNext := rfl
@[simp] theorem State.setSlot_heldBacks : (s.setSlot n x).heldBacks = s.heldBacks := rfl
@[simp] theorem State.setSlot_heldReqs : (s.setSlot n x).heldReqs = s.heldReqs := rfl
@[simp] theorem State.setSlot_fenceOrder : (s.setSlot n x).fenceOrder = s.fenceOrder := rfl
@[simp] theorem State.setSlot_ranges : (s.setSlot n x).ranges = s.ranges := rfl
@[simp] theorem State.setSlot_itable : (s.setSlot n x).itable = s.itable := rfl
@[simp] theorem State.setSlot_itmap : (s.setSlot n x).itmap = s.itmap := rfl
@[simp] theorem State.setSlot_itgen : (s.setSlot n x).itgen = s.itgen := rfl
@[simp] theorem State.setSlot_itbusy : (s.setSlot n x).itbusy = s.itbusy := rfl
@[simp] theorem State.setSlot_itstatus : (s.setSlot n x).itstatus = s.itstatus := rfl
@[simp] theorem State.setSlot_dsplit : (s.setSlot n x).dsplit = s.dsplit := rfl
@[simp] theorem State.setSlot_dsplitLocked : (s.setSlot n x).dsplitLocked = s.dsplitLocked := rfl
@[simp] theorem State.setSlot_flushes : (s.setSlot n x).flushes = s.flushes := rfl
@[simp] theorem State.setSlot_wovlHeld : (s.setSlot n x).wovlHeld = s.wovlHeld := rfl
@[simp] theorem State.setSlot_pwr : (s.setSlot n x).pwr = s.pwr := rfl
@[simp] theorem State.setSlot_plim : (s.setSlot n x).plim = s.plim := rfl
@[simp] theorem State.setSlot_clamp : (s.setSlot n x).clamp = s.clamp := rfl
@[simp] theorem State.setSlot_ecntDrop : (s.setSlot n x).ecntDrop = s.ecntDrop := rfl
@[simp] theorem State.setSlot_ecntLast : (s.setSlot n x).ecntLast = s.ecntLast := rfl
@[simp] theorem State.setSlot_ecntTrans : (s.setSlot n x).ecntTrans = s.ecntTrans := rfl
@[simp] theorem State.setSlot_badPages : (s.setSlot n x).badPages = s.badPages := rfl
@[simp] theorem State.setSlot_hostWins : (s.setSlot n x).hostWins = s.hostWins := rfl
@[simp] theorem State.setSlot_flash : (s.setSlot n x).flash = s.flash := rfl
@[simp] theorem State.setSlot_recovery : (s.setSlot n x).recovery = s.recovery := rfl
@[simp] theorem State.setSlot_badLinks : (s.setSlot n x).badLinks = s.badLinks := rfl
@[simp] theorem State.setSlot_badPorts : (s.setSlot n x).badPorts = s.badPorts := rfl
@[simp] theorem State.setSlot_badReduction : (s.setSlot n x).badReduction = s.badReduction := rfl
@[simp] theorem State.setSlot_badStacks : (s.setSlot n x).badStacks = s.badStacks := rfl
@[simp] theorem State.setSlot_lostTasks : (s.setSlot n x).lostTasks = s.lostTasks := rfl
end

/-! ### setFunc -/
section
variable (s : State) (f : Nat) (x : Func)
@[simp] theorem State.setFunc_cur : (s.setFunc f x).cur = s.cur := rfl
@[simp] theorem State.setFunc_agenda : (s.setFunc f x).agenda = s.agenda := rfl
@[simp] theorem State.setFunc_verdict : (s.setFunc f x).verdict = s.verdict := rfl
@[simp] theorem State.setFunc_inputs : (s.setFunc f x).inputs = s.inputs := rfl
@[simp] theorem State.setFunc_out : (s.setFunc f x).out = s.out := rfl
@[simp] theorem State.setFunc_draws : (s.setFunc f x).draws = s.draws := rfl
@[simp] theorem State.setFunc_home : (s.setFunc f x).home = s.home := rfl
@[simp] theorem State.setFunc_side : (s.setFunc f x).side = s.side := rfl
@[simp] theorem State.setFunc_scratch : (s.setFunc f x).scratch = s.scratch := rfl
@[simp] theorem State.setFunc_slotMem : (s.setFunc f x).slotMem = s.slotMem := rfl
@[simp] theorem State.setFunc_bankMem : (s.setFunc f x).bankMem = s.bankMem := rfl
@[simp] theorem State.setFunc_sideWriter : (s.setFunc f x).sideWriter = s.sideWriter := rfl
@[simp] theorem State.setFunc_scratchWriter : (s.setFunc f x).scratchWriter = s.scratchWriter := rfl
@[simp] theorem State.setFunc_ctxs : (s.setFunc f x).ctxs = s.ctxs := rfl
@[simp] theorem State.setFunc_prows : (s.setFunc f x).prows = s.prows := rfl
@[simp] theorem State.setFunc_grids : (s.setFunc f x).grids = s.grids := rfl
@[simp] theorem State.setFunc_clusters : (s.setFunc f x).clusters = s.clusters := rfl
@[simp] theorem State.setFunc_cdies : (s.setFunc f x).cdies = s.cdies := rfl
@[simp] theorem State.setFunc_mdies : (s.setFunc f x).mdies = s.mdies := rfl
@[simp] theorem State.setFunc_blocks : (s.setFunc f x).blocks = s.blocks := rfl
@[simp] theorem State.setFunc_tasks : (s.setFunc f x).tasks = s.tasks := rfl
@[simp] theorem State.setFunc_replays : (s.setFunc f x).replays = s.replays := rfl
@[simp] theorem State.setFunc_slots : (s.setFunc f x).slots = s.slots := rfl
@[simp] theorem State.setFunc_funcs : (s.setFunc f x).funcs = Tables.set f x s.funcs := rfl
@[simp] theorem State.setFunc_queues : (s.setFunc f x).queues = s.queues := rfl
@[simp] theorem State.setFunc_nextBlock : (s.setFunc f x).nextBlock = s.nextBlock := rfl
@[simp] theorem State.setFunc_nextTask : (s.setFunc f x).nextTask = s.nextTask := rfl
@[simp] theorem State.setFunc_nextReplay : (s.setFunc f x).nextReplay = s.nextReplay := rfl
@[simp] theorem State.setFunc_watchSerial : (s.setFunc f x).watchSerial = s.watchSerial := rfl
@[simp] theorem State.setFunc_wakes : (s.setFunc f x).wakes = s.wakes := rfl
@[simp] theorem State.setFunc_kickCount : (s.setFunc f x).kickCount = s.kickCount := rfl
@[simp] theorem State.setFunc_accId : (s.setFunc f x).accId = s.accId := rfl
@[simp] theorem State.setFunc_journal : (s.setFunc f x).journal = s.journal := rfl
@[simp] theorem State.setFunc_xclk : (s.setFunc f x).xclk = s.xclk := rfl
@[simp] theorem State.setFunc_xgated : (s.setFunc f x).xgated = s.xgated := rfl
@[simp] theorem State.setFunc_invoked : (s.setFunc f x).invoked = s.invoked := rfl
@[simp] theorem State.setFunc_sentTo : (s.setFunc f x).sentTo = s.sentTo := rfl
@[simp] theorem State.setFunc_retireWrites : (s.setFunc f x).retireWrites = s.retireWrites := rfl
@[simp] theorem State.setFunc_retained : (s.setFunc f x).retained = s.retained := rfl
@[simp] theorem State.setFunc_peerWrites : (s.setFunc f x).peerWrites = s.peerWrites := rfl
@[simp] theorem State.setFunc_peerNext : (s.setFunc f x).peerNext = s.peerNext := rfl
@[simp] theorem State.setFunc_heldBacks : (s.setFunc f x).heldBacks = s.heldBacks := rfl
@[simp] theorem State.setFunc_heldReqs : (s.setFunc f x).heldReqs = s.heldReqs := rfl
@[simp] theorem State.setFunc_fenceOrder : (s.setFunc f x).fenceOrder = s.fenceOrder := rfl
@[simp] theorem State.setFunc_ranges : (s.setFunc f x).ranges = s.ranges := rfl
@[simp] theorem State.setFunc_itable : (s.setFunc f x).itable = s.itable := rfl
@[simp] theorem State.setFunc_itmap : (s.setFunc f x).itmap = s.itmap := rfl
@[simp] theorem State.setFunc_itgen : (s.setFunc f x).itgen = s.itgen := rfl
@[simp] theorem State.setFunc_itbusy : (s.setFunc f x).itbusy = s.itbusy := rfl
@[simp] theorem State.setFunc_itstatus : (s.setFunc f x).itstatus = s.itstatus := rfl
@[simp] theorem State.setFunc_dsplit : (s.setFunc f x).dsplit = s.dsplit := rfl
@[simp] theorem State.setFunc_dsplitLocked : (s.setFunc f x).dsplitLocked = s.dsplitLocked := rfl
@[simp] theorem State.setFunc_flushes : (s.setFunc f x).flushes = s.flushes := rfl
@[simp] theorem State.setFunc_wovlHeld : (s.setFunc f x).wovlHeld = s.wovlHeld := rfl
@[simp] theorem State.setFunc_pwr : (s.setFunc f x).pwr = s.pwr := rfl
@[simp] theorem State.setFunc_plim : (s.setFunc f x).plim = s.plim := rfl
@[simp] theorem State.setFunc_clamp : (s.setFunc f x).clamp = s.clamp := rfl
@[simp] theorem State.setFunc_ecntDrop : (s.setFunc f x).ecntDrop = s.ecntDrop := rfl
@[simp] theorem State.setFunc_ecntLast : (s.setFunc f x).ecntLast = s.ecntLast := rfl
@[simp] theorem State.setFunc_ecntTrans : (s.setFunc f x).ecntTrans = s.ecntTrans := rfl
@[simp] theorem State.setFunc_badPages : (s.setFunc f x).badPages = s.badPages := rfl
@[simp] theorem State.setFunc_hostWins : (s.setFunc f x).hostWins = s.hostWins := rfl
@[simp] theorem State.setFunc_flash : (s.setFunc f x).flash = s.flash := rfl
@[simp] theorem State.setFunc_recovery : (s.setFunc f x).recovery = s.recovery := rfl
@[simp] theorem State.setFunc_badLinks : (s.setFunc f x).badLinks = s.badLinks := rfl
@[simp] theorem State.setFunc_badPorts : (s.setFunc f x).badPorts = s.badPorts := rfl
@[simp] theorem State.setFunc_badReduction : (s.setFunc f x).badReduction = s.badReduction := rfl
@[simp] theorem State.setFunc_badStacks : (s.setFunc f x).badStacks = s.badStacks := rfl
@[simp] theorem State.setFunc_lostTasks : (s.setFunc f x).lostTasks = s.lostTasks := rfl
end

/-! ### emit, noted -/
section
variable (s : State) (o : Output) (v : Nat)
@[simp] theorem State.emit_cur : (s.emit o).cur = s.cur := rfl
@[simp] theorem State.emit_agenda : (s.emit o).agenda = s.agenda := rfl
@[simp] theorem State.emit_verdict : (s.emit o).verdict = s.verdict := rfl
@[simp] theorem State.emit_inputs : (s.emit o).inputs = s.inputs := rfl
@[simp] theorem State.emit_out : (s.emit o).out = s.out ++ [o] := rfl
@[simp] theorem State.emit_draws : (s.emit o).draws = s.draws := rfl
@[simp] theorem State.emit_home : (s.emit o).home = s.home := rfl
@[simp] theorem State.emit_side : (s.emit o).side = s.side := rfl
@[simp] theorem State.emit_scratch : (s.emit o).scratch = s.scratch := rfl
@[simp] theorem State.emit_slotMem : (s.emit o).slotMem = s.slotMem := rfl
@[simp] theorem State.emit_bankMem : (s.emit o).bankMem = s.bankMem := rfl
@[simp] theorem State.emit_sideWriter : (s.emit o).sideWriter = s.sideWriter := rfl
@[simp] theorem State.emit_scratchWriter : (s.emit o).scratchWriter = s.scratchWriter := rfl
@[simp] theorem State.emit_ctxs : (s.emit o).ctxs = s.ctxs := rfl
@[simp] theorem State.emit_prows : (s.emit o).prows = s.prows := rfl
@[simp] theorem State.emit_grids : (s.emit o).grids = s.grids := rfl
@[simp] theorem State.emit_clusters : (s.emit o).clusters = s.clusters := rfl
@[simp] theorem State.emit_cdies : (s.emit o).cdies = s.cdies := rfl
@[simp] theorem State.emit_mdies : (s.emit o).mdies = s.mdies := rfl
@[simp] theorem State.emit_blocks : (s.emit o).blocks = s.blocks := rfl
@[simp] theorem State.emit_tasks : (s.emit o).tasks = s.tasks := rfl
@[simp] theorem State.emit_replays : (s.emit o).replays = s.replays := rfl
@[simp] theorem State.emit_slots : (s.emit o).slots = s.slots := rfl
@[simp] theorem State.emit_funcs : (s.emit o).funcs = s.funcs := rfl
@[simp] theorem State.emit_queues : (s.emit o).queues = s.queues := rfl
@[simp] theorem State.emit_nextBlock : (s.emit o).nextBlock = s.nextBlock := rfl
@[simp] theorem State.emit_nextTask : (s.emit o).nextTask = s.nextTask := rfl
@[simp] theorem State.emit_nextReplay : (s.emit o).nextReplay = s.nextReplay := rfl
@[simp] theorem State.emit_watchSerial : (s.emit o).watchSerial = s.watchSerial := rfl
@[simp] theorem State.emit_wakes : (s.emit o).wakes = s.wakes := rfl
@[simp] theorem State.emit_kickCount : (s.emit o).kickCount = s.kickCount := rfl
@[simp] theorem State.emit_accId : (s.emit o).accId = s.accId := rfl
@[simp] theorem State.emit_journal : (s.emit o).journal = s.journal := rfl
@[simp] theorem State.emit_xclk : (s.emit o).xclk = s.xclk := rfl
@[simp] theorem State.emit_xgated : (s.emit o).xgated = s.xgated := rfl
@[simp] theorem State.emit_invoked : (s.emit o).invoked = s.invoked := rfl
@[simp] theorem State.emit_sentTo : (s.emit o).sentTo = s.sentTo := rfl
@[simp] theorem State.emit_retireWrites : (s.emit o).retireWrites = s.retireWrites := rfl
@[simp] theorem State.emit_retained : (s.emit o).retained = s.retained := rfl
@[simp] theorem State.emit_peerWrites : (s.emit o).peerWrites = s.peerWrites := rfl
@[simp] theorem State.emit_peerNext : (s.emit o).peerNext = s.peerNext := rfl
@[simp] theorem State.emit_heldBacks : (s.emit o).heldBacks = s.heldBacks := rfl
@[simp] theorem State.emit_heldReqs : (s.emit o).heldReqs = s.heldReqs := rfl
@[simp] theorem State.emit_fenceOrder : (s.emit o).fenceOrder = s.fenceOrder := rfl
@[simp] theorem State.emit_ranges : (s.emit o).ranges = s.ranges := rfl
@[simp] theorem State.emit_itable : (s.emit o).itable = s.itable := rfl
@[simp] theorem State.emit_itmap : (s.emit o).itmap = s.itmap := rfl
@[simp] theorem State.emit_itgen : (s.emit o).itgen = s.itgen := rfl
@[simp] theorem State.emit_itbusy : (s.emit o).itbusy = s.itbusy := rfl
@[simp] theorem State.emit_itstatus : (s.emit o).itstatus = s.itstatus := rfl
@[simp] theorem State.emit_dsplit : (s.emit o).dsplit = s.dsplit := rfl
@[simp] theorem State.emit_dsplitLocked : (s.emit o).dsplitLocked = s.dsplitLocked := rfl
@[simp] theorem State.emit_flushes : (s.emit o).flushes = s.flushes := rfl
@[simp] theorem State.emit_wovlHeld : (s.emit o).wovlHeld = s.wovlHeld := rfl
@[simp] theorem State.emit_pwr : (s.emit o).pwr = s.pwr := rfl
@[simp] theorem State.emit_plim : (s.emit o).plim = s.plim := rfl
@[simp] theorem State.emit_clamp : (s.emit o).clamp = s.clamp := rfl
@[simp] theorem State.emit_ecntDrop : (s.emit o).ecntDrop = s.ecntDrop := rfl
@[simp] theorem State.emit_ecntLast : (s.emit o).ecntLast = s.ecntLast := rfl
@[simp] theorem State.emit_ecntTrans : (s.emit o).ecntTrans = s.ecntTrans := rfl
@[simp] theorem State.emit_badPages : (s.emit o).badPages = s.badPages := rfl
@[simp] theorem State.emit_hostWins : (s.emit o).hostWins = s.hostWins := rfl
@[simp] theorem State.emit_flash : (s.emit o).flash = s.flash := rfl
@[simp] theorem State.emit_recovery : (s.emit o).recovery = s.recovery := rfl
@[simp] theorem State.emit_badLinks : (s.emit o).badLinks = s.badLinks := rfl
@[simp] theorem State.emit_badPorts : (s.emit o).badPorts = s.badPorts := rfl
@[simp] theorem State.emit_badReduction : (s.emit o).badReduction = s.badReduction := rfl
@[simp] theorem State.emit_badStacks : (s.emit o).badStacks = s.badStacks := rfl
@[simp] theorem State.emit_lostTasks : (s.emit o).lostTasks = s.lostTasks := rfl
@[simp] theorem State.noted_cur : (s.noted v).cur = none := rfl
@[simp] theorem State.noted_agenda : (s.noted v).agenda = s.agenda := rfl
@[simp] theorem State.noted_verdict : (s.noted v).verdict = v := rfl
@[simp] theorem State.noted_inputs : (s.noted v).inputs = s.inputs := rfl
@[simp] theorem State.noted_out : (s.noted v).out = s.out := rfl
@[simp] theorem State.noted_draws : (s.noted v).draws = s.draws := rfl
@[simp] theorem State.noted_home : (s.noted v).home = s.home := rfl
@[simp] theorem State.noted_side : (s.noted v).side = s.side := rfl
@[simp] theorem State.noted_scratch : (s.noted v).scratch = s.scratch := rfl
@[simp] theorem State.noted_slotMem : (s.noted v).slotMem = s.slotMem := rfl
@[simp] theorem State.noted_bankMem : (s.noted v).bankMem = s.bankMem := rfl
@[simp] theorem State.noted_sideWriter : (s.noted v).sideWriter = s.sideWriter := rfl
@[simp] theorem State.noted_scratchWriter : (s.noted v).scratchWriter = s.scratchWriter := rfl
@[simp] theorem State.noted_ctxs : (s.noted v).ctxs = s.ctxs := rfl
@[simp] theorem State.noted_prows : (s.noted v).prows = s.prows := rfl
@[simp] theorem State.noted_grids : (s.noted v).grids = s.grids := rfl
@[simp] theorem State.noted_clusters : (s.noted v).clusters = s.clusters := rfl
@[simp] theorem State.noted_cdies : (s.noted v).cdies = s.cdies := rfl
@[simp] theorem State.noted_mdies : (s.noted v).mdies = s.mdies := rfl
@[simp] theorem State.noted_blocks : (s.noted v).blocks = s.blocks := rfl
@[simp] theorem State.noted_tasks : (s.noted v).tasks = s.tasks := rfl
@[simp] theorem State.noted_replays : (s.noted v).replays = s.replays := rfl
@[simp] theorem State.noted_slots : (s.noted v).slots = s.slots := rfl
@[simp] theorem State.noted_funcs : (s.noted v).funcs = s.funcs := rfl
@[simp] theorem State.noted_queues : (s.noted v).queues = s.queues := rfl
@[simp] theorem State.noted_nextBlock : (s.noted v).nextBlock = s.nextBlock := rfl
@[simp] theorem State.noted_nextTask : (s.noted v).nextTask = s.nextTask := rfl
@[simp] theorem State.noted_nextReplay : (s.noted v).nextReplay = s.nextReplay := rfl
@[simp] theorem State.noted_watchSerial : (s.noted v).watchSerial = s.watchSerial := rfl
@[simp] theorem State.noted_wakes : (s.noted v).wakes = s.wakes := rfl
@[simp] theorem State.noted_kickCount : (s.noted v).kickCount = s.kickCount := rfl
@[simp] theorem State.noted_accId : (s.noted v).accId = s.accId := rfl
@[simp] theorem State.noted_journal : (s.noted v).journal = s.journal := rfl
@[simp] theorem State.noted_xclk : (s.noted v).xclk = s.xclk := rfl
@[simp] theorem State.noted_xgated : (s.noted v).xgated = s.xgated := rfl
@[simp] theorem State.noted_invoked : (s.noted v).invoked = s.invoked := rfl
@[simp] theorem State.noted_sentTo : (s.noted v).sentTo = s.sentTo := rfl
@[simp] theorem State.noted_retireWrites : (s.noted v).retireWrites = s.retireWrites := rfl
@[simp] theorem State.noted_retained : (s.noted v).retained = s.retained := rfl
@[simp] theorem State.noted_peerWrites : (s.noted v).peerWrites = s.peerWrites := rfl
@[simp] theorem State.noted_peerNext : (s.noted v).peerNext = s.peerNext := rfl
@[simp] theorem State.noted_heldBacks : (s.noted v).heldBacks = s.heldBacks := rfl
@[simp] theorem State.noted_heldReqs : (s.noted v).heldReqs = s.heldReqs := rfl
@[simp] theorem State.noted_fenceOrder : (s.noted v).fenceOrder = s.fenceOrder := rfl
@[simp] theorem State.noted_ranges : (s.noted v).ranges = s.ranges := rfl
@[simp] theorem State.noted_itable : (s.noted v).itable = s.itable := rfl
@[simp] theorem State.noted_itmap : (s.noted v).itmap = s.itmap := rfl
@[simp] theorem State.noted_itgen : (s.noted v).itgen = s.itgen := rfl
@[simp] theorem State.noted_itbusy : (s.noted v).itbusy = s.itbusy := rfl
@[simp] theorem State.noted_itstatus : (s.noted v).itstatus = s.itstatus := rfl
@[simp] theorem State.noted_dsplit : (s.noted v).dsplit = s.dsplit := rfl
@[simp] theorem State.noted_dsplitLocked : (s.noted v).dsplitLocked = s.dsplitLocked := rfl
@[simp] theorem State.noted_flushes : (s.noted v).flushes = s.flushes := rfl
@[simp] theorem State.noted_wovlHeld : (s.noted v).wovlHeld = s.wovlHeld := rfl
@[simp] theorem State.noted_pwr : (s.noted v).pwr = s.pwr := rfl
@[simp] theorem State.noted_plim : (s.noted v).plim = s.plim := rfl
@[simp] theorem State.noted_clamp : (s.noted v).clamp = s.clamp := rfl
@[simp] theorem State.noted_ecntDrop : (s.noted v).ecntDrop = s.ecntDrop := rfl
@[simp] theorem State.noted_ecntLast : (s.noted v).ecntLast = s.ecntLast := rfl
@[simp] theorem State.noted_ecntTrans : (s.noted v).ecntTrans = s.ecntTrans := rfl
@[simp] theorem State.noted_badPages : (s.noted v).badPages = s.badPages := rfl
@[simp] theorem State.noted_hostWins : (s.noted v).hostWins = s.hostWins := rfl
@[simp] theorem State.noted_flash : (s.noted v).flash = s.flash := rfl
@[simp] theorem State.noted_recovery : (s.noted v).recovery = s.recovery := rfl
@[simp] theorem State.noted_badLinks : (s.noted v).badLinks = s.badLinks := rfl
@[simp] theorem State.noted_badPorts : (s.noted v).badPorts = s.badPorts := rfl
@[simp] theorem State.noted_badReduction : (s.noted v).badReduction = s.badReduction := rfl
@[simp] theorem State.noted_badStacks : (s.noted v).badStacks = s.badStacks := rfl
@[simp] theorem State.noted_lostTasks : (s.noted v).lostTasks = s.lostTasks := rfl
end

/-! ### updCtx: nothing where the entry is absent -/
section
variable (s : State) (cid : Nat) (h : Ctx → Ctx)
@[simp] theorem State.updCtx_cur : (s.updCtx cid h).cur = s.cur := by unfold State.updCtx; split <;> rfl
@[simp] theorem State.updCtx_agenda : (s.updCtx cid h).agenda = s.agenda := by unfold State.updCtx; split <;> rfl
@[simp] theorem State.updCtx_verdict : (s.updCtx cid h).verdict = s.verdict := by unfold State.updCtx; split <;> rfl
@[simp] theorem State.updCtx_inputs : (s.updCtx cid h).inputs = s.inputs := by unfold State.updCtx; split <;> rfl
@[simp] theorem State.updCtx_out : (s.updCtx cid h).out = s.out := by unfold State.updCtx; split <;> rfl
@[simp] theorem State.updCtx_draws : (s.updCtx cid h).draws = s.draws := by unfold State.updCtx; split <;> rfl
@[simp] theorem State.updCtx_home : (s.updCtx cid h).home = s.home := by unfold State.updCtx; split <;> rfl
@[simp] theorem State.updCtx_side : (s.updCtx cid h).side = s.side := by unfold State.updCtx; split <;> rfl
@[simp] theorem State.updCtx_scratch : (s.updCtx cid h).scratch = s.scratch := by unfold State.updCtx; split <;> rfl
@[simp] theorem State.updCtx_slotMem : (s.updCtx cid h).slotMem = s.slotMem := by unfold State.updCtx; split <;> rfl
@[simp] theorem State.updCtx_bankMem : (s.updCtx cid h).bankMem = s.bankMem := by unfold State.updCtx; split <;> rfl
@[simp] theorem State.updCtx_sideWriter : (s.updCtx cid h).sideWriter = s.sideWriter := by unfold State.updCtx; split <;> rfl
@[simp] theorem State.updCtx_scratchWriter : (s.updCtx cid h).scratchWriter = s.scratchWriter := by unfold State.updCtx; split <;> rfl
@[simp] theorem State.updCtx_prows : (s.updCtx cid h).prows = s.prows := by unfold State.updCtx; split <;> rfl
@[simp] theorem State.updCtx_grids : (s.updCtx cid h).grids = s.grids := by unfold State.updCtx; split <;> rfl
@[simp] theorem State.updCtx_clusters : (s.updCtx cid h).clusters = s.clusters := by unfold State.updCtx; split <;> rfl
@[simp] theorem State.updCtx_cdies : (s.updCtx cid h).cdies = s.cdies := by unfold State.updCtx; split <;> rfl
@[simp] theorem State.updCtx_mdies : (s.updCtx cid h).mdies = s.mdies := by unfold State.updCtx; split <;> rfl
@[simp] theorem State.updCtx_blocks : (s.updCtx cid h).blocks = s.blocks := by unfold State.updCtx; split <;> rfl
@[simp] theorem State.updCtx_tasks : (s.updCtx cid h).tasks = s.tasks := by unfold State.updCtx; split <;> rfl
@[simp] theorem State.updCtx_replays : (s.updCtx cid h).replays = s.replays := by unfold State.updCtx; split <;> rfl
@[simp] theorem State.updCtx_slots : (s.updCtx cid h).slots = s.slots := by unfold State.updCtx; split <;> rfl
@[simp] theorem State.updCtx_funcs : (s.updCtx cid h).funcs = s.funcs := by unfold State.updCtx; split <;> rfl
@[simp] theorem State.updCtx_queues : (s.updCtx cid h).queues = s.queues := by unfold State.updCtx; split <;> rfl
@[simp] theorem State.updCtx_nextBlock : (s.updCtx cid h).nextBlock = s.nextBlock := by unfold State.updCtx; split <;> rfl
@[simp] theorem State.updCtx_nextTask : (s.updCtx cid h).nextTask = s.nextTask := by unfold State.updCtx; split <;> rfl
@[simp] theorem State.updCtx_nextReplay : (s.updCtx cid h).nextReplay = s.nextReplay := by unfold State.updCtx; split <;> rfl
@[simp] theorem State.updCtx_watchSerial : (s.updCtx cid h).watchSerial = s.watchSerial := by unfold State.updCtx; split <;> rfl
@[simp] theorem State.updCtx_wakes : (s.updCtx cid h).wakes = s.wakes := by unfold State.updCtx; split <;> rfl
@[simp] theorem State.updCtx_kickCount : (s.updCtx cid h).kickCount = s.kickCount := by unfold State.updCtx; split <;> rfl
@[simp] theorem State.updCtx_accId : (s.updCtx cid h).accId = s.accId := by unfold State.updCtx; split <;> rfl
@[simp] theorem State.updCtx_journal : (s.updCtx cid h).journal = s.journal := by unfold State.updCtx; split <;> rfl
@[simp] theorem State.updCtx_xclk : (s.updCtx cid h).xclk = s.xclk := by unfold State.updCtx; split <;> rfl
@[simp] theorem State.updCtx_xgated : (s.updCtx cid h).xgated = s.xgated := by unfold State.updCtx; split <;> rfl
@[simp] theorem State.updCtx_invoked : (s.updCtx cid h).invoked = s.invoked := by unfold State.updCtx; split <;> rfl
@[simp] theorem State.updCtx_sentTo : (s.updCtx cid h).sentTo = s.sentTo := by unfold State.updCtx; split <;> rfl
@[simp] theorem State.updCtx_retireWrites : (s.updCtx cid h).retireWrites = s.retireWrites := by unfold State.updCtx; split <;> rfl
@[simp] theorem State.updCtx_retained : (s.updCtx cid h).retained = s.retained := by unfold State.updCtx; split <;> rfl
@[simp] theorem State.updCtx_peerWrites : (s.updCtx cid h).peerWrites = s.peerWrites := by unfold State.updCtx; split <;> rfl
@[simp] theorem State.updCtx_peerNext : (s.updCtx cid h).peerNext = s.peerNext := by unfold State.updCtx; split <;> rfl
@[simp] theorem State.updCtx_heldBacks : (s.updCtx cid h).heldBacks = s.heldBacks := by unfold State.updCtx; split <;> rfl
@[simp] theorem State.updCtx_heldReqs : (s.updCtx cid h).heldReqs = s.heldReqs := by unfold State.updCtx; split <;> rfl
@[simp] theorem State.updCtx_fenceOrder : (s.updCtx cid h).fenceOrder = s.fenceOrder := by unfold State.updCtx; split <;> rfl
@[simp] theorem State.updCtx_ranges : (s.updCtx cid h).ranges = s.ranges := by unfold State.updCtx; split <;> rfl
@[simp] theorem State.updCtx_itable : (s.updCtx cid h).itable = s.itable := by unfold State.updCtx; split <;> rfl
@[simp] theorem State.updCtx_itmap : (s.updCtx cid h).itmap = s.itmap := by unfold State.updCtx; split <;> rfl
@[simp] theorem State.updCtx_itgen : (s.updCtx cid h).itgen = s.itgen := by unfold State.updCtx; split <;> rfl
@[simp] theorem State.updCtx_itbusy : (s.updCtx cid h).itbusy = s.itbusy := by unfold State.updCtx; split <;> rfl
@[simp] theorem State.updCtx_itstatus : (s.updCtx cid h).itstatus = s.itstatus := by unfold State.updCtx; split <;> rfl
@[simp] theorem State.updCtx_dsplit : (s.updCtx cid h).dsplit = s.dsplit := by unfold State.updCtx; split <;> rfl
@[simp] theorem State.updCtx_dsplitLocked : (s.updCtx cid h).dsplitLocked = s.dsplitLocked := by unfold State.updCtx; split <;> rfl
@[simp] theorem State.updCtx_flushes : (s.updCtx cid h).flushes = s.flushes := by unfold State.updCtx; split <;> rfl
@[simp] theorem State.updCtx_wovlHeld : (s.updCtx cid h).wovlHeld = s.wovlHeld := by unfold State.updCtx; split <;> rfl
@[simp] theorem State.updCtx_pwr : (s.updCtx cid h).pwr = s.pwr := by unfold State.updCtx; split <;> rfl
@[simp] theorem State.updCtx_plim : (s.updCtx cid h).plim = s.plim := by unfold State.updCtx; split <;> rfl
@[simp] theorem State.updCtx_clamp : (s.updCtx cid h).clamp = s.clamp := by unfold State.updCtx; split <;> rfl
@[simp] theorem State.updCtx_ecntDrop : (s.updCtx cid h).ecntDrop = s.ecntDrop := by unfold State.updCtx; split <;> rfl
@[simp] theorem State.updCtx_ecntLast : (s.updCtx cid h).ecntLast = s.ecntLast := by unfold State.updCtx; split <;> rfl
@[simp] theorem State.updCtx_ecntTrans : (s.updCtx cid h).ecntTrans = s.ecntTrans := by unfold State.updCtx; split <;> rfl
@[simp] theorem State.updCtx_badPages : (s.updCtx cid h).badPages = s.badPages := by unfold State.updCtx; split <;> rfl
@[simp] theorem State.updCtx_hostWins : (s.updCtx cid h).hostWins = s.hostWins := by unfold State.updCtx; split <;> rfl
@[simp] theorem State.updCtx_flash : (s.updCtx cid h).flash = s.flash := by unfold State.updCtx; split <;> rfl
@[simp] theorem State.updCtx_recovery : (s.updCtx cid h).recovery = s.recovery := by unfold State.updCtx; split <;> rfl
@[simp] theorem State.updCtx_badLinks : (s.updCtx cid h).badLinks = s.badLinks := by unfold State.updCtx; split <;> rfl
@[simp] theorem State.updCtx_badPorts : (s.updCtx cid h).badPorts = s.badPorts := by unfold State.updCtx; split <;> rfl
@[simp] theorem State.updCtx_badReduction : (s.updCtx cid h).badReduction = s.badReduction := by unfold State.updCtx; split <;> rfl
@[simp] theorem State.updCtx_badStacks : (s.updCtx cid h).badStacks = s.badStacks := by unfold State.updCtx; split <;> rfl
@[simp] theorem State.updCtx_lostTasks : (s.updCtx cid h).lostTasks = s.lostTasks := by unfold State.updCtx; split <;> rfl
end

/-! ### updBlock: nothing where the entry is absent -/
section
variable (s : State) (b : Nat) (h : Block → Block)
@[simp] theorem State.updBlock_cur : (s.updBlock b h).cur = s.cur := by unfold State.updBlock; split <;> rfl
@[simp] theorem State.updBlock_agenda : (s.updBlock b h).agenda = s.agenda := by unfold State.updBlock; split <;> rfl
@[simp] theorem State.updBlock_verdict : (s.updBlock b h).verdict = s.verdict := by unfold State.updBlock; split <;> rfl
@[simp] theorem State.updBlock_inputs : (s.updBlock b h).inputs = s.inputs := by unfold State.updBlock; split <;> rfl
@[simp] theorem State.updBlock_out : (s.updBlock b h).out = s.out := by unfold State.updBlock; split <;> rfl
@[simp] theorem State.updBlock_draws : (s.updBlock b h).draws = s.draws := by unfold State.updBlock; split <;> rfl
@[simp] theorem State.updBlock_home : (s.updBlock b h).home = s.home := by unfold State.updBlock; split <;> rfl
@[simp] theorem State.updBlock_side : (s.updBlock b h).side = s.side := by unfold State.updBlock; split <;> rfl
@[simp] theorem State.updBlock_scratch : (s.updBlock b h).scratch = s.scratch := by unfold State.updBlock; split <;> rfl
@[simp] theorem State.updBlock_slotMem : (s.updBlock b h).slotMem = s.slotMem := by unfold State.updBlock; split <;> rfl
@[simp] theorem State.updBlock_bankMem : (s.updBlock b h).bankMem = s.bankMem := by unfold State.updBlock; split <;> rfl
@[simp] theorem State.updBlock_sideWriter : (s.updBlock b h).sideWriter = s.sideWriter := by unfold State.updBlock; split <;> rfl
@[simp] theorem State.updBlock_scratchWriter : (s.updBlock b h).scratchWriter = s.scratchWriter := by unfold State.updBlock; split <;> rfl
@[simp] theorem State.updBlock_ctxs : (s.updBlock b h).ctxs = s.ctxs := by unfold State.updBlock; split <;> rfl
@[simp] theorem State.updBlock_prows : (s.updBlock b h).prows = s.prows := by unfold State.updBlock; split <;> rfl
@[simp] theorem State.updBlock_grids : (s.updBlock b h).grids = s.grids := by unfold State.updBlock; split <;> rfl
@[simp] theorem State.updBlock_clusters : (s.updBlock b h).clusters = s.clusters := by unfold State.updBlock; split <;> rfl
@[simp] theorem State.updBlock_cdies : (s.updBlock b h).cdies = s.cdies := by unfold State.updBlock; split <;> rfl
@[simp] theorem State.updBlock_mdies : (s.updBlock b h).mdies = s.mdies := by unfold State.updBlock; split <;> rfl
@[simp] theorem State.updBlock_tasks : (s.updBlock b h).tasks = s.tasks := by unfold State.updBlock; split <;> rfl
@[simp] theorem State.updBlock_replays : (s.updBlock b h).replays = s.replays := by unfold State.updBlock; split <;> rfl
@[simp] theorem State.updBlock_slots : (s.updBlock b h).slots = s.slots := by unfold State.updBlock; split <;> rfl
@[simp] theorem State.updBlock_funcs : (s.updBlock b h).funcs = s.funcs := by unfold State.updBlock; split <;> rfl
@[simp] theorem State.updBlock_queues : (s.updBlock b h).queues = s.queues := by unfold State.updBlock; split <;> rfl
@[simp] theorem State.updBlock_nextBlock : (s.updBlock b h).nextBlock = s.nextBlock := by unfold State.updBlock; split <;> rfl
@[simp] theorem State.updBlock_nextTask : (s.updBlock b h).nextTask = s.nextTask := by unfold State.updBlock; split <;> rfl
@[simp] theorem State.updBlock_nextReplay : (s.updBlock b h).nextReplay = s.nextReplay := by unfold State.updBlock; split <;> rfl
@[simp] theorem State.updBlock_watchSerial : (s.updBlock b h).watchSerial = s.watchSerial := by unfold State.updBlock; split <;> rfl
@[simp] theorem State.updBlock_wakes : (s.updBlock b h).wakes = s.wakes := by unfold State.updBlock; split <;> rfl
@[simp] theorem State.updBlock_kickCount : (s.updBlock b h).kickCount = s.kickCount := by unfold State.updBlock; split <;> rfl
@[simp] theorem State.updBlock_accId : (s.updBlock b h).accId = s.accId := by unfold State.updBlock; split <;> rfl
@[simp] theorem State.updBlock_journal : (s.updBlock b h).journal = s.journal := by unfold State.updBlock; split <;> rfl
@[simp] theorem State.updBlock_xclk : (s.updBlock b h).xclk = s.xclk := by unfold State.updBlock; split <;> rfl
@[simp] theorem State.updBlock_xgated : (s.updBlock b h).xgated = s.xgated := by unfold State.updBlock; split <;> rfl
@[simp] theorem State.updBlock_invoked : (s.updBlock b h).invoked = s.invoked := by unfold State.updBlock; split <;> rfl
@[simp] theorem State.updBlock_sentTo : (s.updBlock b h).sentTo = s.sentTo := by unfold State.updBlock; split <;> rfl
@[simp] theorem State.updBlock_retireWrites : (s.updBlock b h).retireWrites = s.retireWrites := by unfold State.updBlock; split <;> rfl
@[simp] theorem State.updBlock_retained : (s.updBlock b h).retained = s.retained := by unfold State.updBlock; split <;> rfl
@[simp] theorem State.updBlock_peerWrites : (s.updBlock b h).peerWrites = s.peerWrites := by unfold State.updBlock; split <;> rfl
@[simp] theorem State.updBlock_peerNext : (s.updBlock b h).peerNext = s.peerNext := by unfold State.updBlock; split <;> rfl
@[simp] theorem State.updBlock_heldBacks : (s.updBlock b h).heldBacks = s.heldBacks := by unfold State.updBlock; split <;> rfl
@[simp] theorem State.updBlock_heldReqs : (s.updBlock b h).heldReqs = s.heldReqs := by unfold State.updBlock; split <;> rfl
@[simp] theorem State.updBlock_fenceOrder : (s.updBlock b h).fenceOrder = s.fenceOrder := by unfold State.updBlock; split <;> rfl
@[simp] theorem State.updBlock_ranges : (s.updBlock b h).ranges = s.ranges := by unfold State.updBlock; split <;> rfl
@[simp] theorem State.updBlock_itable : (s.updBlock b h).itable = s.itable := by unfold State.updBlock; split <;> rfl
@[simp] theorem State.updBlock_itmap : (s.updBlock b h).itmap = s.itmap := by unfold State.updBlock; split <;> rfl
@[simp] theorem State.updBlock_itgen : (s.updBlock b h).itgen = s.itgen := by unfold State.updBlock; split <;> rfl
@[simp] theorem State.updBlock_itbusy : (s.updBlock b h).itbusy = s.itbusy := by unfold State.updBlock; split <;> rfl
@[simp] theorem State.updBlock_itstatus : (s.updBlock b h).itstatus = s.itstatus := by unfold State.updBlock; split <;> rfl
@[simp] theorem State.updBlock_dsplit : (s.updBlock b h).dsplit = s.dsplit := by unfold State.updBlock; split <;> rfl
@[simp] theorem State.updBlock_dsplitLocked : (s.updBlock b h).dsplitLocked = s.dsplitLocked := by unfold State.updBlock; split <;> rfl
@[simp] theorem State.updBlock_flushes : (s.updBlock b h).flushes = s.flushes := by unfold State.updBlock; split <;> rfl
@[simp] theorem State.updBlock_wovlHeld : (s.updBlock b h).wovlHeld = s.wovlHeld := by unfold State.updBlock; split <;> rfl
@[simp] theorem State.updBlock_pwr : (s.updBlock b h).pwr = s.pwr := by unfold State.updBlock; split <;> rfl
@[simp] theorem State.updBlock_plim : (s.updBlock b h).plim = s.plim := by unfold State.updBlock; split <;> rfl
@[simp] theorem State.updBlock_clamp : (s.updBlock b h).clamp = s.clamp := by unfold State.updBlock; split <;> rfl
@[simp] theorem State.updBlock_ecntDrop : (s.updBlock b h).ecntDrop = s.ecntDrop := by unfold State.updBlock; split <;> rfl
@[simp] theorem State.updBlock_ecntLast : (s.updBlock b h).ecntLast = s.ecntLast := by unfold State.updBlock; split <;> rfl
@[simp] theorem State.updBlock_ecntTrans : (s.updBlock b h).ecntTrans = s.ecntTrans := by unfold State.updBlock; split <;> rfl
@[simp] theorem State.updBlock_badPages : (s.updBlock b h).badPages = s.badPages := by unfold State.updBlock; split <;> rfl
@[simp] theorem State.updBlock_hostWins : (s.updBlock b h).hostWins = s.hostWins := by unfold State.updBlock; split <;> rfl
@[simp] theorem State.updBlock_flash : (s.updBlock b h).flash = s.flash := by unfold State.updBlock; split <;> rfl
@[simp] theorem State.updBlock_recovery : (s.updBlock b h).recovery = s.recovery := by unfold State.updBlock; split <;> rfl
@[simp] theorem State.updBlock_badLinks : (s.updBlock b h).badLinks = s.badLinks := by unfold State.updBlock; split <;> rfl
@[simp] theorem State.updBlock_badPorts : (s.updBlock b h).badPorts = s.badPorts := by unfold State.updBlock; split <;> rfl
@[simp] theorem State.updBlock_badReduction : (s.updBlock b h).badReduction = s.badReduction := by unfold State.updBlock; split <;> rfl
@[simp] theorem State.updBlock_badStacks : (s.updBlock b h).badStacks = s.badStacks := by unfold State.updBlock; split <;> rfl
@[simp] theorem State.updBlock_lostTasks : (s.updBlock b h).lostTasks = s.lostTasks := by unfold State.updBlock; split <;> rfl
end

/-! ### updTask: nothing where the entry is absent -/
section
variable (s : State) (b : Nat) (h : Task → Task)
@[simp] theorem State.updTask_cur : (s.updTask b h).cur = s.cur := by unfold State.updTask; split <;> rfl
@[simp] theorem State.updTask_agenda : (s.updTask b h).agenda = s.agenda := by unfold State.updTask; split <;> rfl
@[simp] theorem State.updTask_verdict : (s.updTask b h).verdict = s.verdict := by unfold State.updTask; split <;> rfl
@[simp] theorem State.updTask_inputs : (s.updTask b h).inputs = s.inputs := by unfold State.updTask; split <;> rfl
@[simp] theorem State.updTask_out : (s.updTask b h).out = s.out := by unfold State.updTask; split <;> rfl
@[simp] theorem State.updTask_draws : (s.updTask b h).draws = s.draws := by unfold State.updTask; split <;> rfl
@[simp] theorem State.updTask_home : (s.updTask b h).home = s.home := by unfold State.updTask; split <;> rfl
@[simp] theorem State.updTask_side : (s.updTask b h).side = s.side := by unfold State.updTask; split <;> rfl
@[simp] theorem State.updTask_scratch : (s.updTask b h).scratch = s.scratch := by unfold State.updTask; split <;> rfl
@[simp] theorem State.updTask_slotMem : (s.updTask b h).slotMem = s.slotMem := by unfold State.updTask; split <;> rfl
@[simp] theorem State.updTask_bankMem : (s.updTask b h).bankMem = s.bankMem := by unfold State.updTask; split <;> rfl
@[simp] theorem State.updTask_sideWriter : (s.updTask b h).sideWriter = s.sideWriter := by unfold State.updTask; split <;> rfl
@[simp] theorem State.updTask_scratchWriter : (s.updTask b h).scratchWriter = s.scratchWriter := by unfold State.updTask; split <;> rfl
@[simp] theorem State.updTask_ctxs : (s.updTask b h).ctxs = s.ctxs := by unfold State.updTask; split <;> rfl
@[simp] theorem State.updTask_prows : (s.updTask b h).prows = s.prows := by unfold State.updTask; split <;> rfl
@[simp] theorem State.updTask_grids : (s.updTask b h).grids = s.grids := by unfold State.updTask; split <;> rfl
@[simp] theorem State.updTask_clusters : (s.updTask b h).clusters = s.clusters := by unfold State.updTask; split <;> rfl
@[simp] theorem State.updTask_cdies : (s.updTask b h).cdies = s.cdies := by unfold State.updTask; split <;> rfl
@[simp] theorem State.updTask_mdies : (s.updTask b h).mdies = s.mdies := by unfold State.updTask; split <;> rfl
@[simp] theorem State.updTask_blocks : (s.updTask b h).blocks = s.blocks := by unfold State.updTask; split <;> rfl
@[simp] theorem State.updTask_replays : (s.updTask b h).replays = s.replays := by unfold State.updTask; split <;> rfl
@[simp] theorem State.updTask_slots : (s.updTask b h).slots = s.slots := by unfold State.updTask; split <;> rfl
@[simp] theorem State.updTask_funcs : (s.updTask b h).funcs = s.funcs := by unfold State.updTask; split <;> rfl
@[simp] theorem State.updTask_queues : (s.updTask b h).queues = s.queues := by unfold State.updTask; split <;> rfl
@[simp] theorem State.updTask_nextBlock : (s.updTask b h).nextBlock = s.nextBlock := by unfold State.updTask; split <;> rfl
@[simp] theorem State.updTask_nextTask : (s.updTask b h).nextTask = s.nextTask := by unfold State.updTask; split <;> rfl
@[simp] theorem State.updTask_nextReplay : (s.updTask b h).nextReplay = s.nextReplay := by unfold State.updTask; split <;> rfl
@[simp] theorem State.updTask_watchSerial : (s.updTask b h).watchSerial = s.watchSerial := by unfold State.updTask; split <;> rfl
@[simp] theorem State.updTask_wakes : (s.updTask b h).wakes = s.wakes := by unfold State.updTask; split <;> rfl
@[simp] theorem State.updTask_kickCount : (s.updTask b h).kickCount = s.kickCount := by unfold State.updTask; split <;> rfl
@[simp] theorem State.updTask_accId : (s.updTask b h).accId = s.accId := by unfold State.updTask; split <;> rfl
@[simp] theorem State.updTask_journal : (s.updTask b h).journal = s.journal := by unfold State.updTask; split <;> rfl
@[simp] theorem State.updTask_xclk : (s.updTask b h).xclk = s.xclk := by unfold State.updTask; split <;> rfl
@[simp] theorem State.updTask_xgated : (s.updTask b h).xgated = s.xgated := by unfold State.updTask; split <;> rfl
@[simp] theorem State.updTask_invoked : (s.updTask b h).invoked = s.invoked := by unfold State.updTask; split <;> rfl
@[simp] theorem State.updTask_sentTo : (s.updTask b h).sentTo = s.sentTo := by unfold State.updTask; split <;> rfl
@[simp] theorem State.updTask_retireWrites : (s.updTask b h).retireWrites = s.retireWrites := by unfold State.updTask; split <;> rfl
@[simp] theorem State.updTask_retained : (s.updTask b h).retained = s.retained := by unfold State.updTask; split <;> rfl
@[simp] theorem State.updTask_peerWrites : (s.updTask b h).peerWrites = s.peerWrites := by unfold State.updTask; split <;> rfl
@[simp] theorem State.updTask_peerNext : (s.updTask b h).peerNext = s.peerNext := by unfold State.updTask; split <;> rfl
@[simp] theorem State.updTask_heldBacks : (s.updTask b h).heldBacks = s.heldBacks := by unfold State.updTask; split <;> rfl
@[simp] theorem State.updTask_heldReqs : (s.updTask b h).heldReqs = s.heldReqs := by unfold State.updTask; split <;> rfl
@[simp] theorem State.updTask_fenceOrder : (s.updTask b h).fenceOrder = s.fenceOrder := by unfold State.updTask; split <;> rfl
@[simp] theorem State.updTask_ranges : (s.updTask b h).ranges = s.ranges := by unfold State.updTask; split <;> rfl
@[simp] theorem State.updTask_itable : (s.updTask b h).itable = s.itable := by unfold State.updTask; split <;> rfl
@[simp] theorem State.updTask_itmap : (s.updTask b h).itmap = s.itmap := by unfold State.updTask; split <;> rfl
@[simp] theorem State.updTask_itgen : (s.updTask b h).itgen = s.itgen := by unfold State.updTask; split <;> rfl
@[simp] theorem State.updTask_itbusy : (s.updTask b h).itbusy = s.itbusy := by unfold State.updTask; split <;> rfl
@[simp] theorem State.updTask_itstatus : (s.updTask b h).itstatus = s.itstatus := by unfold State.updTask; split <;> rfl
@[simp] theorem State.updTask_dsplit : (s.updTask b h).dsplit = s.dsplit := by unfold State.updTask; split <;> rfl
@[simp] theorem State.updTask_dsplitLocked : (s.updTask b h).dsplitLocked = s.dsplitLocked := by unfold State.updTask; split <;> rfl
@[simp] theorem State.updTask_flushes : (s.updTask b h).flushes = s.flushes := by unfold State.updTask; split <;> rfl
@[simp] theorem State.updTask_wovlHeld : (s.updTask b h).wovlHeld = s.wovlHeld := by unfold State.updTask; split <;> rfl
@[simp] theorem State.updTask_pwr : (s.updTask b h).pwr = s.pwr := by unfold State.updTask; split <;> rfl
@[simp] theorem State.updTask_plim : (s.updTask b h).plim = s.plim := by unfold State.updTask; split <;> rfl
@[simp] theorem State.updTask_clamp : (s.updTask b h).clamp = s.clamp := by unfold State.updTask; split <;> rfl
@[simp] theorem State.updTask_ecntDrop : (s.updTask b h).ecntDrop = s.ecntDrop := by unfold State.updTask; split <;> rfl
@[simp] theorem State.updTask_ecntLast : (s.updTask b h).ecntLast = s.ecntLast := by unfold State.updTask; split <;> rfl
@[simp] theorem State.updTask_ecntTrans : (s.updTask b h).ecntTrans = s.ecntTrans := by unfold State.updTask; split <;> rfl
@[simp] theorem State.updTask_badPages : (s.updTask b h).badPages = s.badPages := by unfold State.updTask; split <;> rfl
@[simp] theorem State.updTask_hostWins : (s.updTask b h).hostWins = s.hostWins := by unfold State.updTask; split <;> rfl
@[simp] theorem State.updTask_flash : (s.updTask b h).flash = s.flash := by unfold State.updTask; split <;> rfl
@[simp] theorem State.updTask_recovery : (s.updTask b h).recovery = s.recovery := by unfold State.updTask; split <;> rfl
@[simp] theorem State.updTask_badLinks : (s.updTask b h).badLinks = s.badLinks := by unfold State.updTask; split <;> rfl
@[simp] theorem State.updTask_badPorts : (s.updTask b h).badPorts = s.badPorts := by unfold State.updTask; split <;> rfl
@[simp] theorem State.updTask_badReduction : (s.updTask b h).badReduction = s.badReduction := by unfold State.updTask; split <;> rfl
@[simp] theorem State.updTask_badStacks : (s.updTask b h).badStacks = s.badStacks := by unfold State.updTask; split <;> rfl
@[simp] theorem State.updTask_lostTasks : (s.updTask b h).lostTasks = s.lostTasks := by unfold State.updTask; split <;> rfl
end

/-! ### updReplay: nothing where the entry is absent -/
section
variable (s : State) (b : Nat) (h : Replay → Replay)
@[simp] theorem State.updReplay_cur : (s.updReplay b h).cur = s.cur := by unfold State.updReplay; split <;> rfl
@[simp] theorem State.updReplay_agenda : (s.updReplay b h).agenda = s.agenda := by unfold State.updReplay; split <;> rfl
@[simp] theorem State.updReplay_verdict : (s.updReplay b h).verdict = s.verdict := by unfold State.updReplay; split <;> rfl
@[simp] theorem State.updReplay_inputs : (s.updReplay b h).inputs = s.inputs := by unfold State.updReplay; split <;> rfl
@[simp] theorem State.updReplay_out : (s.updReplay b h).out = s.out := by unfold State.updReplay; split <;> rfl
@[simp] theorem State.updReplay_draws : (s.updReplay b h).draws = s.draws := by unfold State.updReplay; split <;> rfl
@[simp] theorem State.updReplay_home : (s.updReplay b h).home = s.home := by unfold State.updReplay; split <;> rfl
@[simp] theorem State.updReplay_side : (s.updReplay b h).side = s.side := by unfold State.updReplay; split <;> rfl
@[simp] theorem State.updReplay_scratch : (s.updReplay b h).scratch = s.scratch := by unfold State.updReplay; split <;> rfl
@[simp] theorem State.updReplay_slotMem : (s.updReplay b h).slotMem = s.slotMem := by unfold State.updReplay; split <;> rfl
@[simp] theorem State.updReplay_bankMem : (s.updReplay b h).bankMem = s.bankMem := by unfold State.updReplay; split <;> rfl
@[simp] theorem State.updReplay_sideWriter : (s.updReplay b h).sideWriter = s.sideWriter := by unfold State.updReplay; split <;> rfl
@[simp] theorem State.updReplay_scratchWriter : (s.updReplay b h).scratchWriter = s.scratchWriter := by unfold State.updReplay; split <;> rfl
@[simp] theorem State.updReplay_ctxs : (s.updReplay b h).ctxs = s.ctxs := by unfold State.updReplay; split <;> rfl
@[simp] theorem State.updReplay_prows : (s.updReplay b h).prows = s.prows := by unfold State.updReplay; split <;> rfl
@[simp] theorem State.updReplay_grids : (s.updReplay b h).grids = s.grids := by unfold State.updReplay; split <;> rfl
@[simp] theorem State.updReplay_clusters : (s.updReplay b h).clusters = s.clusters := by unfold State.updReplay; split <;> rfl
@[simp] theorem State.updReplay_cdies : (s.updReplay b h).cdies = s.cdies := by unfold State.updReplay; split <;> rfl
@[simp] theorem State.updReplay_mdies : (s.updReplay b h).mdies = s.mdies := by unfold State.updReplay; split <;> rfl
@[simp] theorem State.updReplay_blocks : (s.updReplay b h).blocks = s.blocks := by unfold State.updReplay; split <;> rfl
@[simp] theorem State.updReplay_tasks : (s.updReplay b h).tasks = s.tasks := by unfold State.updReplay; split <;> rfl
@[simp] theorem State.updReplay_slots : (s.updReplay b h).slots = s.slots := by unfold State.updReplay; split <;> rfl
@[simp] theorem State.updReplay_funcs : (s.updReplay b h).funcs = s.funcs := by unfold State.updReplay; split <;> rfl
@[simp] theorem State.updReplay_queues : (s.updReplay b h).queues = s.queues := by unfold State.updReplay; split <;> rfl
@[simp] theorem State.updReplay_nextBlock : (s.updReplay b h).nextBlock = s.nextBlock := by unfold State.updReplay; split <;> rfl
@[simp] theorem State.updReplay_nextTask : (s.updReplay b h).nextTask = s.nextTask := by unfold State.updReplay; split <;> rfl
@[simp] theorem State.updReplay_nextReplay : (s.updReplay b h).nextReplay = s.nextReplay := by unfold State.updReplay; split <;> rfl
@[simp] theorem State.updReplay_watchSerial : (s.updReplay b h).watchSerial = s.watchSerial := by unfold State.updReplay; split <;> rfl
@[simp] theorem State.updReplay_wakes : (s.updReplay b h).wakes = s.wakes := by unfold State.updReplay; split <;> rfl
@[simp] theorem State.updReplay_kickCount : (s.updReplay b h).kickCount = s.kickCount := by unfold State.updReplay; split <;> rfl
@[simp] theorem State.updReplay_accId : (s.updReplay b h).accId = s.accId := by unfold State.updReplay; split <;> rfl
@[simp] theorem State.updReplay_journal : (s.updReplay b h).journal = s.journal := by unfold State.updReplay; split <;> rfl
@[simp] theorem State.updReplay_xclk : (s.updReplay b h).xclk = s.xclk := by unfold State.updReplay; split <;> rfl
@[simp] theorem State.updReplay_xgated : (s.updReplay b h).xgated = s.xgated := by unfold State.updReplay; split <;> rfl
@[simp] theorem State.updReplay_invoked : (s.updReplay b h).invoked = s.invoked := by unfold State.updReplay; split <;> rfl
@[simp] theorem State.updReplay_sentTo : (s.updReplay b h).sentTo = s.sentTo := by unfold State.updReplay; split <;> rfl
@[simp] theorem State.updReplay_retireWrites : (s.updReplay b h).retireWrites = s.retireWrites := by unfold State.updReplay; split <;> rfl
@[simp] theorem State.updReplay_retained : (s.updReplay b h).retained = s.retained := by unfold State.updReplay; split <;> rfl
@[simp] theorem State.updReplay_peerWrites : (s.updReplay b h).peerWrites = s.peerWrites := by unfold State.updReplay; split <;> rfl
@[simp] theorem State.updReplay_peerNext : (s.updReplay b h).peerNext = s.peerNext := by unfold State.updReplay; split <;> rfl
@[simp] theorem State.updReplay_heldBacks : (s.updReplay b h).heldBacks = s.heldBacks := by unfold State.updReplay; split <;> rfl
@[simp] theorem State.updReplay_heldReqs : (s.updReplay b h).heldReqs = s.heldReqs := by unfold State.updReplay; split <;> rfl
@[simp] theorem State.updReplay_fenceOrder : (s.updReplay b h).fenceOrder = s.fenceOrder := by unfold State.updReplay; split <;> rfl
@[simp] theorem State.updReplay_ranges : (s.updReplay b h).ranges = s.ranges := by unfold State.updReplay; split <;> rfl
@[simp] theorem State.updReplay_itable : (s.updReplay b h).itable = s.itable := by unfold State.updReplay; split <;> rfl
@[simp] theorem State.updReplay_itmap : (s.updReplay b h).itmap = s.itmap := by unfold State.updReplay; split <;> rfl
@[simp] theorem State.updReplay_itgen : (s.updReplay b h).itgen = s.itgen := by unfold State.updReplay; split <;> rfl
@[simp] theorem State.updReplay_itbusy : (s.updReplay b h).itbusy = s.itbusy := by unfold State.updReplay; split <;> rfl
@[simp] theorem State.updReplay_itstatus : (s.updReplay b h).itstatus = s.itstatus := by unfold State.updReplay; split <;> rfl
@[simp] theorem State.updReplay_dsplit : (s.updReplay b h).dsplit = s.dsplit := by unfold State.updReplay; split <;> rfl
@[simp] theorem State.updReplay_dsplitLocked : (s.updReplay b h).dsplitLocked = s.dsplitLocked := by unfold State.updReplay; split <;> rfl
@[simp] theorem State.updReplay_flushes : (s.updReplay b h).flushes = s.flushes := by unfold State.updReplay; split <;> rfl
@[simp] theorem State.updReplay_wovlHeld : (s.updReplay b h).wovlHeld = s.wovlHeld := by unfold State.updReplay; split <;> rfl
@[simp] theorem State.updReplay_pwr : (s.updReplay b h).pwr = s.pwr := by unfold State.updReplay; split <;> rfl
@[simp] theorem State.updReplay_plim : (s.updReplay b h).plim = s.plim := by unfold State.updReplay; split <;> rfl
@[simp] theorem State.updReplay_clamp : (s.updReplay b h).clamp = s.clamp := by unfold State.updReplay; split <;> rfl
@[simp] theorem State.updReplay_ecntDrop : (s.updReplay b h).ecntDrop = s.ecntDrop := by unfold State.updReplay; split <;> rfl
@[simp] theorem State.updReplay_ecntLast : (s.updReplay b h).ecntLast = s.ecntLast := by unfold State.updReplay; split <;> rfl
@[simp] theorem State.updReplay_ecntTrans : (s.updReplay b h).ecntTrans = s.ecntTrans := by unfold State.updReplay; split <;> rfl
@[simp] theorem State.updReplay_badPages : (s.updReplay b h).badPages = s.badPages := by unfold State.updReplay; split <;> rfl
@[simp] theorem State.updReplay_hostWins : (s.updReplay b h).hostWins = s.hostWins := by unfold State.updReplay; split <;> rfl
@[simp] theorem State.updReplay_flash : (s.updReplay b h).flash = s.flash := by unfold State.updReplay; split <;> rfl
@[simp] theorem State.updReplay_recovery : (s.updReplay b h).recovery = s.recovery := by unfold State.updReplay; split <;> rfl
@[simp] theorem State.updReplay_badLinks : (s.updReplay b h).badLinks = s.badLinks := by unfold State.updReplay; split <;> rfl
@[simp] theorem State.updReplay_badPorts : (s.updReplay b h).badPorts = s.badPorts := by unfold State.updReplay; split <;> rfl
@[simp] theorem State.updReplay_badReduction : (s.updReplay b h).badReduction = s.badReduction := by unfold State.updReplay; split <;> rfl
@[simp] theorem State.updReplay_badStacks : (s.updReplay b h).badStacks = s.badStacks := by unfold State.updReplay; split <;> rfl
@[simp] theorem State.updReplay_lostTasks : (s.updReplay b h).lostTasks = s.lostTasks := by unfold State.updReplay; split <;> rfl
end

section
variable (s : State) (h : Nat → Ctx → Ctx)
@[simp] theorem State.mapCtxs_cur : (s.mapCtxs h).cur = s.cur := rfl
@[simp] theorem State.mapCtxs_agenda : (s.mapCtxs h).agenda = s.agenda := rfl
@[simp] theorem State.mapCtxs_verdict : (s.mapCtxs h).verdict = s.verdict := rfl
@[simp] theorem State.mapCtxs_inputs : (s.mapCtxs h).inputs = s.inputs := rfl
@[simp] theorem State.mapCtxs_out : (s.mapCtxs h).out = s.out := rfl
@[simp] theorem State.mapCtxs_draws : (s.mapCtxs h).draws = s.draws := rfl
@[simp] theorem State.mapCtxs_home : (s.mapCtxs h).home = s.home := rfl
@[simp] theorem State.mapCtxs_side : (s.mapCtxs h).side = s.side := rfl
@[simp] theorem State.mapCtxs_scratch : (s.mapCtxs h).scratch = s.scratch := rfl
@[simp] theorem State.mapCtxs_slotMem : (s.mapCtxs h).slotMem = s.slotMem := rfl
@[simp] theorem State.mapCtxs_bankMem : (s.mapCtxs h).bankMem = s.bankMem := rfl
@[simp] theorem State.mapCtxs_sideWriter : (s.mapCtxs h).sideWriter = s.sideWriter := rfl
@[simp] theorem State.mapCtxs_scratchWriter : (s.mapCtxs h).scratchWriter = s.scratchWriter := rfl
@[simp] theorem State.mapCtxs_prows : (s.mapCtxs h).prows = s.prows := rfl
@[simp] theorem State.mapCtxs_grids : (s.mapCtxs h).grids = s.grids := rfl
@[simp] theorem State.mapCtxs_clusters : (s.mapCtxs h).clusters = s.clusters := rfl
@[simp] theorem State.mapCtxs_cdies : (s.mapCtxs h).cdies = s.cdies := rfl
@[simp] theorem State.mapCtxs_mdies : (s.mapCtxs h).mdies = s.mdies := rfl
@[simp] theorem State.mapCtxs_blocks : (s.mapCtxs h).blocks = s.blocks := rfl
@[simp] theorem State.mapCtxs_tasks : (s.mapCtxs h).tasks = s.tasks := rfl
@[simp] theorem State.mapCtxs_replays : (s.mapCtxs h).replays = s.replays := rfl
@[simp] theorem State.mapCtxs_slots : (s.mapCtxs h).slots = s.slots := rfl
@[simp] theorem State.mapCtxs_funcs : (s.mapCtxs h).funcs = s.funcs := rfl
@[simp] theorem State.mapCtxs_queues : (s.mapCtxs h).queues = s.queues := rfl
@[simp] theorem State.mapCtxs_nextBlock : (s.mapCtxs h).nextBlock = s.nextBlock := rfl
@[simp] theorem State.mapCtxs_nextTask : (s.mapCtxs h).nextTask = s.nextTask := rfl
@[simp] theorem State.mapCtxs_nextReplay : (s.mapCtxs h).nextReplay = s.nextReplay := rfl
@[simp] theorem State.mapCtxs_watchSerial : (s.mapCtxs h).watchSerial = s.watchSerial := rfl
@[simp] theorem State.mapCtxs_wakes : (s.mapCtxs h).wakes = s.wakes := rfl
@[simp] theorem State.mapCtxs_kickCount : (s.mapCtxs h).kickCount = s.kickCount := rfl
@[simp] theorem State.mapCtxs_accId : (s.mapCtxs h).accId = s.accId := rfl
@[simp] theorem State.mapCtxs_journal : (s.mapCtxs h).journal = s.journal := rfl
@[simp] theorem State.mapCtxs_xclk : (s.mapCtxs h).xclk = s.xclk := rfl
@[simp] theorem State.mapCtxs_xgated : (s.mapCtxs h).xgated = s.xgated := rfl
@[simp] theorem State.mapCtxs_invoked : (s.mapCtxs h).invoked = s.invoked := rfl
@[simp] theorem State.mapCtxs_sentTo : (s.mapCtxs h).sentTo = s.sentTo := rfl
@[simp] theorem State.mapCtxs_retireWrites : (s.mapCtxs h).retireWrites = s.retireWrites := rfl
@[simp] theorem State.mapCtxs_retained : (s.mapCtxs h).retained = s.retained := rfl
@[simp] theorem State.mapCtxs_peerWrites : (s.mapCtxs h).peerWrites = s.peerWrites := rfl
@[simp] theorem State.mapCtxs_peerNext : (s.mapCtxs h).peerNext = s.peerNext := rfl
@[simp] theorem State.mapCtxs_heldBacks : (s.mapCtxs h).heldBacks = s.heldBacks := rfl
@[simp] theorem State.mapCtxs_heldReqs : (s.mapCtxs h).heldReqs = s.heldReqs := rfl
@[simp] theorem State.mapCtxs_fenceOrder : (s.mapCtxs h).fenceOrder = s.fenceOrder := rfl
@[simp] theorem State.mapCtxs_ranges : (s.mapCtxs h).ranges = s.ranges := rfl
@[simp] theorem State.mapCtxs_itable : (s.mapCtxs h).itable = s.itable := rfl
@[simp] theorem State.mapCtxs_itmap : (s.mapCtxs h).itmap = s.itmap := rfl
@[simp] theorem State.mapCtxs_itgen : (s.mapCtxs h).itgen = s.itgen := rfl
@[simp] theorem State.mapCtxs_itbusy : (s.mapCtxs h).itbusy = s.itbusy := rfl
@[simp] theorem State.mapCtxs_itstatus : (s.mapCtxs h).itstatus = s.itstatus := rfl
@[simp] theorem State.mapCtxs_dsplit : (s.mapCtxs h).dsplit = s.dsplit := rfl
@[simp] theorem State.mapCtxs_dsplitLocked : (s.mapCtxs h).dsplitLocked = s.dsplitLocked := rfl
@[simp] theorem State.mapCtxs_flushes : (s.mapCtxs h).flushes = s.flushes := rfl
@[simp] theorem State.mapCtxs_wovlHeld : (s.mapCtxs h).wovlHeld = s.wovlHeld := rfl
@[simp] theorem State.mapCtxs_pwr : (s.mapCtxs h).pwr = s.pwr := rfl
@[simp] theorem State.mapCtxs_plim : (s.mapCtxs h).plim = s.plim := rfl
@[simp] theorem State.mapCtxs_clamp : (s.mapCtxs h).clamp = s.clamp := rfl
@[simp] theorem State.mapCtxs_ecntDrop : (s.mapCtxs h).ecntDrop = s.ecntDrop := rfl
@[simp] theorem State.mapCtxs_ecntLast : (s.mapCtxs h).ecntLast = s.ecntLast := rfl
@[simp] theorem State.mapCtxs_ecntTrans : (s.mapCtxs h).ecntTrans = s.ecntTrans := rfl
@[simp] theorem State.mapCtxs_badPages : (s.mapCtxs h).badPages = s.badPages := rfl
@[simp] theorem State.mapCtxs_hostWins : (s.mapCtxs h).hostWins = s.hostWins := rfl
@[simp] theorem State.mapCtxs_flash : (s.mapCtxs h).flash = s.flash := rfl
@[simp] theorem State.mapCtxs_recovery : (s.mapCtxs h).recovery = s.recovery := rfl
@[simp] theorem State.mapCtxs_badLinks : (s.mapCtxs h).badLinks = s.badLinks := rfl
@[simp] theorem State.mapCtxs_badPorts : (s.mapCtxs h).badPorts = s.badPorts := rfl
@[simp] theorem State.mapCtxs_badReduction : (s.mapCtxs h).badReduction = s.badReduction := rfl
@[simp] theorem State.mapCtxs_badStacks : (s.mapCtxs h).badStacks = s.badStacks := rfl
@[simp] theorem State.mapCtxs_lostTasks : (s.mapCtxs h).lostTasks = s.lostTasks := rfl
end

end Sys2Proof.Machine
end

