-- ==== Sys2Proof/Laws/Tables.lean ====
section
/-! SUPPORT. The sparse table: what a read gives after a write, a removal, or a change of every entry. -/
namespace Sys2Proof.Machine.Tables

variable {α : Type}

@[simp] theorem get?_nil (k : Nat) : get? ([] : Tbl α) k = none := rfl
theorem get?_cons (e : Nat × α) (t : Tbl α) (k : Nat) :
    get? (e :: t) k = if e.1 = k then some e.2 else get? t k := by
  by_cases h : e.1 = k <;> simp [get?, h]
@[simp] theorem get?_set_self (t : Tbl α) (k : Nat) (v : α) : get? (set k v t) k = some v := by
  induction t with
  | nil => simp [set, get?_cons]
  | cons e t ih => grind [set, get?_cons]
@[simp] theorem get?_set_ne (t : Tbl α) {j k : Nat} (v : α) (h : j ≠ k) : get? (set k v t) j = get? t j := by
  induction t with
  | nil => simp [set, get?_cons, Ne.symm h]
  | cons e t ih => grind [set, get?_cons]
theorem get?_set (t : Tbl α) (j k : Nat) (v : α) : get? (set k v t) j = if j = k then some v else get? t j := by
  by_cases h : j = k
  · simp [h]
  · simp [h]
@[simp] theorem get?_erase_self (t : Tbl α) (k : Nat) : get? (erase t k) k = none := by
  induction t with
  | nil => rfl
  | cons e t ih => grind [erase, get?_cons, get?_nil]
@[simp] theorem get?_erase_ne (t : Tbl α) {j k : Nat} (h : j ≠ k) : get? (erase t k) j = get? t j := by
  induction t with
  | nil => rfl
  | cons e t ih => grind [erase, get?_cons, get?_nil]
@[simp] theorem get?_mapVal (t : Tbl α) (f : Nat → α → α) (k : Nat) :
    get? (mapVal f t) k = (get? t k).map (f k) := by
  induction t with
  | nil => rfl
  | cons e t ih =>
    have : mapVal f (e :: t) = (e.1, f e.1 e.2) :: mapVal f t := rfl
    grind [get?_cons]
theorem mem_of_get? {t : Tbl α} {k : Nat} {v : α} (h : get? t k = some v) : (k, v) ∈ t := by
  induction t with
  | nil => simp at h
  | cons e t ih => grind [get?_cons]

end Sys2Proof.Machine.Tables
end

