-- ==== Sys2Proof/Laws/Core.lean ====
section
/-! SUPPORT. The core of a state: the five memories and the device's registers that no row writes. One lemma for each shared
operation that leaves all of it alone. -/
namespace Sys2Proof.Machine

/-- The state that a meaning leaves, and the state before where it waits or traps. -/
def Res.state (s0 : State) : Res → State
  | .done s | .jump s _ | .hold s _ | .park s _ _ | .trapWith s _ _ _ _ => s
  | .stay _ | .trap _ _ _ _ => s0
@[simp] theorem Res.state_done (s0 : State) (s : State) : Res.state s0 (.done s) = s := rfl
@[simp] theorem Res.state_jump (s0 : State) (s : State) (pc : Word64) : Res.state s0 (.jump s pc) = s := rfl
@[simp] theorem Res.state_hold (s0 : State) (s : State) (st : Stage) : Res.state s0 (.hold s st) = s := rfl
@[simp] theorem Res.state_park (s0 : State) (s : State) (w : Wait) (st : Stage) : Res.state s0 (.park s w st) = s := rfl
@[simp] theorem Res.state_stay (s0 : State) (st : Stage) : Res.state s0 (.stay st) = s0 := rfl
@[simp] theorem Res.state_trap (s0 : State) (c : Nat) (m : Word32) (a h : Word64) : Res.state s0 (.trap c m a h) = s0 := rfl

@[simp] theorem Res.state_trapWith (s0 s : State) (c : Nat) (m : Word32) (a h : Word64) : Res.state s0 (.trapWith s c m a h) = s := rfl

theorem foldl_core {α : Type} (f : State → α → State) (h : ∀ s a, (f s a).core = s.core) (l : List α) (s : State) :
    (l.foldl f s).core = s.core := by
  induction l generalizing s with
  | nil => rfl
  | cons a l ih => rw [List.foldl_cons, ih, h]
@[simp] theorem State.setCtx_core (s : State) (cid : Nat) (x : Ctx) : (s.setCtx cid x).core = s.core := rfl
@[simp] theorem State.setRow_core (s : State) (p : Nat) (x : PhysRow) : (s.setRow p x).core = s.core := rfl
@[simp] theorem State.setGrid_core (s : State) (g : Nat) (x : Grid) : (s.setGrid g x).core = s.core := rfl
@[simp] theorem State.setCluster_core (s : State) (c : Nat) (x : Cluster) : (s.setCluster c x).core = s.core := rfl
@[simp] theorem State.setCdie_core (s : State) (d : Nat) (x : CDie) : (s.setCdie d x).core = s.core := rfl
@[simp] theorem State.setMdie_core (s : State) (m : Nat) (x : MDie) : (s.setMdie m x).core = s.core := rfl
@[simp] theorem State.setBlock_core (s : State) (b : Nat) (x : Block) : (s.setBlock b x).core = s.core := rfl
@[simp] theorem State.setTask_core (s : State) (t : Nat) (x : Task) : (s.setTask t x).core = s.core := rfl
@[simp] theorem State.setReplay_core (s : State) (r : Nat) (x : Replay) : (s.setReplay r x).core = s.core := rfl
@[simp] theorem State.setSlot_core (s : State) (n : Nat) (x : Slot) : (s.setSlot n x).core = s.core := rfl
@[simp] theorem State.setFunc_core (s : State) (f : Nat) (x : Func) : (s.setFunc f x).core = s.core := rfl
@[simp] theorem core_with_cur (s : State) (x : Option Nat) : State.core { s with cur := x } = s.core := rfl
@[simp] theorem core_with_agenda (s : State) (x : List Action) : State.core { s with agenda := x } = s.core := rfl
@[simp] theorem core_with_verdict (s : State) (x : Nat) : State.core { s with verdict := x } = s.core := rfl
@[simp] theorem core_with_inputs (s : State) (x : List Instr) : State.core { s with inputs := x } = s.core := rfl
@[simp] theorem core_with_out (s : State) (x : List Output) : State.core { s with out := x } = s.core := rfl
@[simp] theorem core_with_draws (s : State) (x : Nat) : State.core { s with draws := x } = s.core := rfl
@[simp] theorem core_with_sideWriter (s : State) (x : Tbl Nat) : State.core { s with sideWriter := x } = s.core := rfl
@[simp] theorem core_with_scratchWriter (s : State) (x : Tbl Nat) : State.core { s with scratchWriter := x } = s.core := rfl
@[simp] theorem core_with_ctxs (s : State) (x : Tbl Ctx) : State.core { s with ctxs := x } = s.core := rfl
@[simp] theorem core_with_prows (s : State) (x : Tbl PhysRow) : State.core { s with prows := x } = s.core := rfl
@[simp] theorem core_with_grids (s : State) (x : Tbl Grid) : State.core { s with grids := x } = s.core := rfl
@[simp] theorem core_with_clusters (s : State) (x : Tbl Cluster) : State.core { s with clusters := x } = s.core := rfl
@[simp] theorem core_with_cdies (s : State) (x : Tbl CDie) : State.core { s with cdies := x } = s.core := rfl
@[simp] theorem core_with_mdies (s : State) (x : Tbl MDie) : State.core { s with mdies := x } = s.core := rfl
@[simp] theorem core_with_blocks (s : State) (x : Tbl Block) : State.core { s with blocks := x } = s.core := rfl
@[simp] theorem core_with_tasks (s : State) (x : Tbl Task) : State.core { s with tasks := x } = s.core := rfl
@[simp] theorem core_with_replays (s : State) (x : Tbl Replay) : State.core { s with replays := x } = s.core := rfl
@[simp] theorem core_with_slots (s : State) (x : Tbl Slot) : State.core { s with slots := x } = s.core := rfl
@[simp] theorem core_with_funcs (s : State) (x : Tbl Func) : State.core { s with funcs := x } = s.core := rfl
@[simp] theorem core_with_queues (s : State) (x : Tbl Queue) : State.core { s with queues := x } = s.core := rfl
@[simp] theorem core_with_nextBlock (s : State) (x : Nat) : State.core { s with nextBlock := x } = s.core := rfl
@[simp] theorem core_with_nextTask (s : State) (x : Nat) : State.core { s with nextTask := x } = s.core := rfl
@[simp] theorem core_with_nextReplay (s : State) (x : Nat) : State.core { s with nextReplay := x } = s.core := rfl
@[simp] theorem core_with_watchSerial (s : State) (x : Nat) : State.core { s with watchSerial := x } = s.core := rfl
@[simp] theorem core_with_wakes (s : State) (x : List (Nat × Nat × Nat)) : State.core { s with wakes := x } = s.core := rfl
@[simp] theorem core_with_kickCount (s : State) (x : Nat) : State.core { s with kickCount := x } = s.core := rfl
@[simp] theorem core_with_journal (s : State) (x : List Held) : State.core { s with journal := x } = s.core := rfl
@[simp] theorem core_with_xclk (s : State) (x : Nat) : State.core { s with xclk := x } = s.core := rfl
@[simp] theorem core_with_xgated (s : State) (x : Bool) : State.core { s with xgated := x } = s.core := rfl
@[simp] theorem core_with_invoked (s : State) (x : List Invoked) : State.core { s with invoked := x } = s.core := rfl
@[simp] theorem core_with_sentTo (s : State) (x : List (Nat × Nat × Nat)) : State.core { s with sentTo := x } = s.core := rfl
@[simp] theorem core_with_retireWrites (s : State) (x : List RetireW) : State.core { s with retireWrites := x } = s.core := rfl
@[simp] theorem core_with_retained (s : State) (x : List Retained) : State.core { s with retained := x } = s.core := rfl
@[simp] theorem core_with_peerWrites (s : State) (x : List Nat) : State.core { s with peerWrites := x } = s.core := rfl
@[simp] theorem core_with_heldBacks (s : State) (x : List (Nat × Nat × List Byte)) : State.core { s with heldBacks := x } = s.core := rfl
@[simp] theorem core_with_heldReqs (s : State) (x : List Instr) : State.core { s with heldReqs := x } = s.core := rfl
@[simp] theorem core_with_lostTasks (s : State) (x : List Nat) : State.core { s with lostTasks := x } = s.core := rfl
@[simp] theorem core_with_flash (s : State) (x : Option (Signature × Nat)) : State.core { s with flash := x } = s.core := rfl
@[simp] theorem core_with_peerNext (s : State) (x : Nat) : State.core { s with peerNext := x } = s.core := rfl
@[simp] theorem core_with_fenceOrder (s : State) (x : Nat) : State.core { s with fenceOrder := x } = s.core := rfl
@[simp] theorem core_with_dsplitLocked (s : State) (x : Bool) : State.core { s with dsplitLocked := x } = s.core := rfl
@[simp] theorem core_with_flushes (s : State) (x : List Flush) : State.core { s with flushes := x } = s.core := rfl
@[simp] theorem core_with_wovlHeld (s : State) (x : Nat) : State.core { s with wovlHeld := x } = s.core := rfl
@[simp] theorem core_with_badLinks (s : State) (x : List (Nat × Nat)) : State.core { s with badLinks := x } = s.core := rfl
@[simp] theorem core_with_badPorts (s : State) (x : List Nat) : State.core { s with badPorts := x } = s.core := rfl
@[simp] theorem core_with_badReduction (s : State) (x : Bool) : State.core { s with badReduction := x } = s.core := rfl
@[simp] theorem core_with_badStacks (s : State) (x : List Nat) : State.core { s with badStacks := x } = s.core := rfl
@[simp] theorem State.updCtx_core (s : State) (cid : Nat) (f : Ctx → Ctx) : (s.updCtx cid f).core = s.core := by
  unfold State.updCtx; split <;> simp
@[simp] theorem State.updRow_core (s : State) (p : Nat) (f : PhysRow → PhysRow) : (s.updRow p f).core = s.core := by
  rfl
@[simp] theorem State.updGrid_core (s : State) (g : Nat) (f : Grid → Grid) : (s.updGrid g f).core = s.core := by
  rfl
@[simp] theorem State.updCluster_core (s : State) (c : Nat) (f : Cluster → Cluster) : (s.updCluster c f).core = s.core := by
  rfl
@[simp] theorem State.updCdie_core (s : State) (d : Nat) (f : CDie → CDie) : (s.updCdie d f).core = s.core := by
  rfl
@[simp] theorem State.updMdie_core (s : State) (m : Nat) (f : MDie → MDie) : (s.updMdie m f).core = s.core := by
  rfl
@[simp] theorem State.updSlot_core (s : State) (n : Nat) (f : Slot → Slot) : (s.updSlot n f).core = s.core := by
  rfl
@[simp] theorem State.updFunc_core (s : State) (n : Nat) (f : Func → Func) : (s.updFunc n f).core = s.core := by
  rfl
@[simp] theorem State.updBlock_core (s : State) (b : Nat) (f : Block → Block) : (s.updBlock b f).core = s.core := by
  unfold State.updBlock; split <;> simp
@[simp] theorem State.updTask_core (s : State) (b : Nat) (f : Task → Task) : (s.updTask b f).core = s.core := by
  unfold State.updTask; split <;> simp
@[simp] theorem State.updReplay_core (s : State) (b : Nat) (f : Replay → Replay) : (s.updReplay b f).core = s.core := by
  unfold State.updReplay; split <;> simp
@[simp] theorem State.mapCtxs_core (s : State) (f : Nat → Ctx → Ctx) : (s.mapCtxs f).core = s.core := by
  rfl
@[simp] theorem State.emit_core (s : State) (o : Output) : (s.emit o).core = s.core := by
  rfl
@[simp] theorem State.recordLine_core (s : State) (u : Nat) (array : Nat) (line : Nat) : (s.recordLine u array line).core = s.core := by
  unfold State.recordLine; (repeat' split) <;> simp
@[simp] theorem State.returnBuckets_core (s : State) (g : Nat) (n : Nat) : (s.returnBuckets g n).core = s.core := by
  unfold State.returnBuckets; split <;> simp
@[simp] theorem State.launch_core (s : State) (cid : Nat) (lat : Nat) (writes : List RegWrite) (flags : BitVec 5) (buckets : Nat) (queued : Bool) (canFlag : Bool) : (s.launch cid lat writes flags buckets queued canFlag).core = s.core := by
  simp [State.launch]
@[simp] theorem State.land_core (s : State) (cid : Nat) (r : InFlight) : (s.land cid r).core = s.core := by
  unfold State.land; simp only [State.returnBuckets_core]; rw [foldl_core, State.updCtx_core]; intro t w; cases w <;> simp
@[simp] theorem State.setFuture_core (s : State) (h : Word32) (e : Future) : (s.setFuture h e).core = s.core := by
  rfl
theorem State.allocFuture_core (s : State) (c : Nat) (kind : Nat) (owner : Option Nat) (reserve : Nat) (r : State × Word32) : (s.allocFuture c kind owner reserve) = some r → r.1.core = s.core := by
  intro h; simp only [State.allocFuture, Option.ite_none_right_eq_some, Option.map_eq_some_iff] at h; obtain ⟨_, _, _, h⟩ := h; rw [← h]; simp
@[simp] theorem State.freeFuture_core (s : State) (h : Word32) : (s.freeFuture h).core = s.core := by
  unfold State.freeFuture; split <;> simp
@[simp] theorem State.mapImages_core (s : State) (f : Ctx → Ctx) : (s.mapImages f).core = s.core := by
  rfl
@[simp] theorem State.settle_core (s : State) (h : Word32) (state : Nat) (value : Word64) (cause : Nat) : (s.settle h state value cause).core = s.core := by
  unfold State.settle; dsimp only; (repeat' split) <;> simp [*]
@[simp] theorem State.park_core (s : State) (cid : Nat) (w : Wait) : (s.park cid w).core = s.core := by
  unfold State.park; split <;> simp
@[simp] theorem State.wakeWhere_core (s : State) (p : Nat → Ctx → Bool) : (s.wakeWhere p).core = s.core := by
  rfl
@[simp] theorem State.revoke_core (s : State) (g : Nat) (sp : Space) (off : Nat) : (s.revoke g sp off).core = s.core := by
  unfold State.revoke; dsimp only; (repeat' split) <;> simp [*]
@[simp] theorem State.cacheByte_core (s : State) (g : Nat) (sp : Space) (off : Nat) (b : Byte) (whole : Bool) : (s.cacheByte g sp off b whole).core = s.core := by
  unfold State.cacheByte; dsimp only; (repeat' split) <;> simp [*]
@[simp] theorem State.fireLocal_core (s : State) (sp : Space) (off : Nat) : (s.fireLocal sp off).core = s.core := by
  unfold State.fireLocal; dsimp only; (repeat' split) <;> simp [*]
@[simp] theorem State.queueStore_core (s : State) (cid : Nat) (extra : Nat) (bs : List (Space × Nat × Byte)) : (s.queueStore cid extra bs).core = s.core := by
  unfold State.queueStore; split <;> simp
@[simp] theorem State.fillLine_core (s : State) (g : Nat) (sp : Space) (off : Nat) : (s.fillLine g sp off).core = s.core := by
  unfold State.fillLine; dsimp only; (repeat' split) <;> simp [*]
@[simp] theorem State.loadBytes_core (s : State) (g : Nat) (sp : Space) (off n : Nat) : (s.loadBytes g sp off n).1.core = s.core := by
  induction n generalizing off s with
  | zero => rfl
  | succ n ih => unfold State.loadBytes; split <;> simp [ih]
@[simp] theorem State.releaseBanks_core (s : State) (cid : Nat) : (s.releaseBanks cid).core = s.core := by
  unfold State.releaseBanks; dsimp only; (repeat' split) <;> simp [*]
@[simp] theorem State.acquire_core (s : State) (g : Nat) : (s.acquire g).core = s.core := by
  rfl
@[simp] theorem State.moveBaton_core (s : State) (p : Nat) (pend : List Nat) (h : Option Nat) (t : Nat) : (s.moveBaton p pend h t).core = s.core := by
  simp [State.moveBaton]
@[simp] theorem State.passBaton_core (s : State) (p : Nat) (keep : Bool) : (s.passBaton p keep).core = s.core := by
  unfold State.passBaton; dsimp only; (repeat' split) <;> simp [*]
@[simp] theorem State.freeOwned_core (s : State) (b : Nat) : (s.freeOwned b).core = s.core := by
  simp [State.freeOwned, foldl_core]
@[simp] theorem State.stopBlock_core (s : State) (b : Nat) : (s.stopBlock b).core = s.core := by
  simp [State.stopBlock, foldl_core]
@[simp] theorem State.unanchor_core (s : State) (m : Nat) (b : Nat) : (s.unanchor m b).core = s.core := by
  unfold State.unanchor; split <;> simp
@[simp] theorem State.dropReady_core (s : State) (b : Nat) (x : Block) : (s.dropReady b x).core = s.core := by
  simp [State.dropReady, foldl_core]
@[simp] theorem State.failTask_core (s : State) (t : Nat) (status : Nat) (cause : Nat) : (s.failTask t status cause).core = s.core := by
  unfold State.failTask; split
  · rfl
  · split
    · rfl
    · dsimp only; (repeat' split) <;> (try simp only [State.updReplay_core, State.freeFuture_core, State.settle_core]) <;>
        rw [foldl_core _ (fun s e => by split <;> simp), foldl_core _ (fun s h => by split <;> simp)] <;> rfl
@[simp] theorem State.abortBlock_core (s : State) (b : Nat) (cause : Nat) : (s.abortBlock b cause).core = s.core := by
  unfold State.abortBlock; split <;> simp
@[simp] theorem State.enterTrap_core (s : State) (cid : Nat) (t : Trap) : (s.enterTrap cid t).core = s.core := by
  unfold State.enterTrap; dsimp only; (repeat' split) <;> simp [*]
@[simp] theorem State.takeTrap_core (s : State) (cid : Nat) (t : Trap) : (s.takeTrap cid t).core = s.core := by
  unfold State.takeTrap; dsimp only; (repeat' split) <;> simp [*]
@[simp] theorem State.leaveTrap_core (s : State) (cid : Nat) : (s.leaveTrap cid).core = s.core := by
  simp [State.leaveTrap]
@[simp] theorem State.popTake_core (s : State) (cid : Nat) : (s.popTake cid).core = s.core := by
  unfold State.popTake; split <;> simp
@[simp] theorem State.pushCells_core (s : State) (cid : Nat) (cells : Tbl Cell) : (s.pushCells cid cells).core = s.core := by
  unfold State.pushCells; split <;> simp
@[simp] theorem State.pushLanes_core (s : State) (cid : Nat) (val : Lanes) (mask : Word32) : (s.pushLanes cid val mask).core = s.core := by
  simp [State.pushLanes]
@[simp] theorem State.vectorResult_core (s : State) (cid : Nat) (f : Fields) (lat : Nat) (val : Lanes) (mask : Word32) (flags : BitVec 5) (buckets : Nat) (extra : List RegWrite) (queued : Bool) (canFlag : Bool) : (s.vectorResult cid f lat val mask flags buckets extra queued canFlag).core = s.core := by
  unfold State.vectorResult; split <;> simp
@[simp] theorem State.noted_core (s : State) (v : Nat) : (s.noted v).core = s.core := by
  rfl
@[simp] theorem State.beginIssue_core (s : State) (cid : Nat) : (s.beginIssue cid).core = s.core := by
  unfold State.beginIssue; simp only; rw [foldl_core, State.updRow_core]; intro t w; split <;> simp
@[simp] theorem State.chainOn_core (s : State) (cid op : Nat) (chainBit : Bool) : (s.chainOn cid op chainBit).core = s.core := by
  simp [State.chainOn]
@[simp] theorem State.beginChain_core (s : State) (cid op : Nat) (begins chainBit : Bool) : (s.beginChain cid op begins chainBit).core = s.core := by
  unfold State.beginChain; split <;> simp
@[simp] theorem State.checked_core (s : State) (cid : Nat) : (s.checked cid).core = s.core := by
  simp [State.checked]
@[simp] theorem State.touch_core (s : State) (ts : List Nat) : (s.touch ts).core = s.core := rfl
@[simp] theorem State.retire_core (s : State) (cid : Nat) (pc : Word64) (price : Nat) (op : Nat) (chainBit : Bool) : (s.retire cid pc price op chainBit).core = s.core := by
  unfold State.retire; dsimp only; split <;> simp
@[simp] theorem State.want_core (s : State) (cid : Nat) (price : Nat) (baton : Bool) : (s.want cid price baton).core = s.core := by
  simp [State.want]
@[simp] theorem State.endChainAt_core (s : State) (cid : Nat) (st : Stage) : (s.endChainAt cid st).core = s.core := by
  unfold State.endChainAt; split <;> simp
@[simp] theorem State.waitAt_core (s : State) (cid : Nat) (i : Instr) (st : Stage) (took : Bool) : (s.waitAt cid i st took).core = s.core := by
  unfold State.waitAt; split <;> simp
@[simp] theorem State.joinAt_core (s : State) (cid : Nat) (ns : List Nat) : (s.joinAt cid ns).core = s.core := by
  simp [State.joinAt]
@[simp] theorem State.trapAt_core (s : State) (cid : Nat) (t : Trap) : (s.trapAt cid t).core = s.core := by
  simp [State.trapAt]
@[simp] theorem State.writeS_core (s : State) (cid : Nat) (f : Fields) (val : Word64) : (s.writeS cid f val).core = s.core := by
  unfold State.writeS; (repeat' split) <;> simp
@[simp] theorem State.launchS_core (s : State) (cid : Nat) (f : Fields) (lat : Nat) (val : Word64) : (s.launchS cid f lat val).core = s.core := by
  unfold State.launchS; split <;> simp
@[simp] theorem State.writeM_core (s : State) (cid : Nat) (f : Fields) (val : Word32) : (s.writeM cid f val).core = s.core := by
  unfold State.writeM; (repeat' split) <;> simp
@[simp] theorem scalarBody_core (op : Nat) (cid : Nat) (f : Fields) (s : State) : ((scalarBody op cid f s).state s).core = s.core := by
  unfold scalarBody; split <;> simp
@[simp] theorem maskBody_core (op : Nat) (cid : Nat) (f : Fields) (s : State) : ((maskBody op cid f s).state s).core = s.core := by
  simp [maskBody]
@[simp] theorem maskGetBody_core (op : Nat) (cid : Nat) (f : Fields) (s : State) : ((maskGetBody op cid f s).state s).core = s.core := by
  simp [maskGetBody]
@[simp] theorem State.redirect_core (s : State) (cid : Nat) (len : Nat) (pc : Word64) (target : Word64) : (s.redirect cid len pc target).core = s.core := by
  unfold State.redirect; dsimp only; (repeat' split) <;> simp [*]
@[simp] theorem State.branchTo_core (s : State) (cid : Nat) (len : Nat) (pc : Word64) (target : Word64) (wraps : Bool) : (s.branchTo cid len pc target wraps).core = s.core := by
  unfold State.branchTo; (repeat' split) <;> simp
@[simp] theorem branchBody_core (op : Nat) (len : Nat) (cid : Nat) (f : Fields) (s : State) : ((branchBody op len cid f s).state s).core = s.core := by
  unfold branchBody; dsimp only; (repeat' split) <;> simp [*]
@[simp] theorem jumpBody_core (op : Nat) (cid : Nat) (f : Fields) (s : State) : ((jumpBody op cid f s).state s).core = s.core := by
  unfold jumpBody; dsimp only; (repeat' split) <;> simp [*]
@[simp] theorem State.popFor_core (s : State) (cid : Nat) (op : Nat) (f : Fields) : (s.popFor cid op f).core = s.core := by
  unfold State.popFor; split <;> simp
@[simp] theorem vecDone_core (s : State) (cid : Nat) (op : Nat) (f : Fields) (lat : Nat) (val : Lanes) (mask : Word32) (flags : Flags) (canFlag : Bool) : ((vecDone s cid op f lat val mask flags canFlag).state s).core = s.core := by
  simp [vecDone]
@[simp] theorem elemBody_core (op : Nat) (cid : Nat) (f : Fields) (s : State) : ((elemBody op cid f s).state s).core = s.core := by
  simp [elemBody]
@[simp] theorem vdot2Body_core (op : Nat) (cid : Nat) (f : Fields) (s : State) : ((vdot2Body op cid f s).state s).core = s.core := by
  simp [vdot2Body]
@[simp] theorem vredBody_core (op : Nat) (cid : Nat) (f : Fields) (s : State) : ((vredBody op cid f s).state s).core = s.core := by
  simp [vredBody]
@[simp] theorem vcmpBody_core (op : Nat) (cid : Nat) (f : Fields) (s : State) : ((vcmpBody op cid f s).state s).core = s.core := by
  unfold vcmpBody; split <;> simp
@[simp] theorem vselBody_core (op : Nat) (cid : Nat) (f : Fields) (s : State) : ((vselBody op cid f s).state s).core = s.core := by
  simp [vselBody]
@[simp] theorem vmovBody_core (op : Nat) (cid : Nat) (f : Fields) (s : State) : ((vmovBody op cid f s).state s).core = s.core := by
  simp [vmovBody]
@[simp] theorem vbcastBody_core (op : Nat) (cid : Nat) (f : Fields) (s : State) : ((vbcastBody op cid f s).state s).core = s.core := by
  simp [vbcastBody]
@[simp] theorem vextBody_core (op : Nat) (cid : Nat) (f : Fields) (s : State) : ((vextBody op cid f s).state s).core = s.core := by
  simp [vextBody]
@[simp] theorem vpermBody_core (op : Nat) (cid : Nat) (f : Fields) (s : State) : ((vpermBody op cid f s).state s).core = s.core := by
  simp [vpermBody]
@[simp] theorem vrotBody_core (op : Nat) (cid : Nat) (f : Fields) (s : State) : ((vrotBody op cid f s).state s).core = s.core := by
  simp [vrotBody]
@[simp] theorem vcompressBody_core (op : Nat) (cid : Nat) (f : Fields) (s : State) : ((vcompressBody op cid f s).state s).core = s.core := by
  simp [vcompressBody]
@[simp] theorem vexpandBody_core (op : Nat) (cid : Nat) (f : Fields) (s : State) : ((vexpandBody op cid f s).state s).core = s.core := by
  simp [vexpandBody]
@[simp] theorem vscanBody_core (op : Nat) (cid : Nat) (f : Fields) (s : State) : ((vscanBody op cid f s).state s).core = s.core := by
  simp [vscanBody]
@[simp] theorem vcvtBody_core (op : Nat) (cid : Nat) (f : Fields) (s : State) : ((vcvtBody op cid f s).state s).core = s.core := by
  simp [vcvtBody]
@[simp] theorem vpackBody_core (op : Nat) (cid : Nat) (f : Fields) (s : State) : ((vpackBody op cid f s).state s).core = s.core := by
  simp [vpackBody]
@[simp] theorem vunpackBody_core (op : Nat) (cid : Nat) (f : Fields) (s : State) : ((vunpackBody op cid f s).state s).core = s.core := by
  simp [vunpackBody]
@[simp] theorem vcvtoBody_core (op : Nat) (cid : Nat) (f : Fields) (s : State) : ((vcvtoBody op cid f s).state s).core = s.core := by
  unfold vcvtoBody; dsimp only; (repeat' split) <;> simp [*]
@[simp] theorem sfuBody_core (op : Nat) (cid : Nat) (f : Fields) (s : State) : ((sfuBody op cid f s).state s).core = s.core := by
  simp [sfuBody]
@[simp] theorem State.markLoad_core (s : State) (cid : Nat) (n : Nat) (ps read : List Place) : (s.markLoad cid n ps read).core = s.core := by
  unfold State.markLoad; split <;> simp
@[simp] theorem loadAll_core (s : State) (g n : Nat) (ps : List Place) : (loadAll s g n ps).1.core = s.core := by
  induction ps generalizing s with
  | nil => rfl
  | cons p ps ih => simp [loadAll, ih]
@[simp] theorem trapRes_core (s : State) (e : Nat × Word32 × Word64) : ((trapRes e).state s).core = s.core := by
  rfl
@[simp] theorem State.poisonLast_core (s : State) (cid : Nat) (bad : Bool) (addr : Word64) : (s.poisonLast cid bad addr).core = s.core := by
  unfold State.poisonLast; split <;> simp
@[simp] theorem vectorLoad_core (s : State) (cid : Nat) (f : Fields) (mask : Word32) (n : Nat) (ps : List Place) : ((vectorLoad s cid f mask n ps).state s).core = s.core := by
  unfold vectorLoad; split <;> simp
@[simp] theorem ldBody_core (cid : Nat) (f : Fields) (s : State) : ((ldBody cid f s).state s).core = s.core := by
  unfold ldBody; dsimp only; (repeat' split) <;> simp [*]
@[simp] theorem ldbBody_core (cid : Nat) (f : Fields) (s : State) : ((ldbBody cid f s).state s).core = s.core := by
  unfold ldbBody; dsimp only; (repeat' split) <;> simp [*]
@[simp] theorem stBody_core (op : Nat) (cid : Nat) (f : Fields) (s : State) : ((stBody op cid f s).state s).core = s.core := by
  unfold stBody; dsimp only; (repeat' split) <;> simp [*]
@[simp] theorem sldBody_core (cid : Nat) (f : Fields) (s : State) : ((sldBody cid f s).state s).core = s.core := by
  unfold sldBody; dsimp only; (repeat' split) <;> simp [*]
@[simp] theorem sstBody_core (cid : Nat) (f : Fields) (s : State) : ((sstBody cid f s).state s).core = s.core := by
  unfold sstBody; dsimp only; (repeat' split) <;> simp [*]
@[simp] theorem State.setSsp_core (s : State) (cid : Nat) (v : Word64) : (s.setSsp cid v).core = s.core := by
  simp [State.setSsp]
@[simp] theorem pushBody_core (cid : Nat) (f : Fields) (s : State) : ((pushBody cid f s).state s).core = s.core := by
  unfold pushBody; dsimp only; (repeat' split) <;> simp [*]
@[simp] theorem popBody_core (cid : Nat) (f : Fields) (s : State) : ((popBody cid f s).state s).core = s.core := by
  unfold popBody; dsimp only; (repeat' split) <;> simp [*]
@[simp] theorem vspillBody_core (cid : Nat) (f : Fields) (s : State) : ((vspillBody cid f s).state s).core = s.core := by
  unfold vspillBody; dsimp only; (repeat' split) <;> simp [*]
@[simp] theorem vfillBody_core (cid : Nat) (f : Fields) (s : State) : ((vfillBody cid f s).state s).core = s.core := by
  unfold vfillBody; dsimp only; (repeat' split) <;> simp [*]
@[simp] theorem fenceBody_core (cid : Nat) (f : Fields) (s : State) : ((fenceBody cid f s).state s).core = s.core := by
  unfold fenceBody; dsimp only; (repeat' split) <;> simp [*]
@[simp] theorem State.atomOrder_core (s : State) (cid : Nat) (d : Nat) (f : Fields) : (s.atomOrder cid d f).core = s.core := by
  simp [State.atomOrder]
@[simp] theorem State.completeBarrier_core (s : State) (blk : Nat) (band : Option Nat) (k : Nat) : (s.completeBarrier blk band k).core = s.core := by
  unfold State.completeBarrier; dsimp only; (repeat' split) <;> simp [*]
@[simp] theorem State.leaveBarriers_core (s : State) (blk : Nat) (band : Nat) : (s.leaveBarriers blk band).core = s.core := by
  simp [State.leaveBarriers, foldl_core]
@[simp] theorem State.withdrawWatch_core (s : State) (cid : Nat) : (s.withdrawWatch cid).core = s.core := by
  unfold State.withdrawWatch; (repeat' split) <;> simp [foldl_core]
@[simp] theorem nopBody_core (_cid : Nat) (_f : Fields) (s : State) : ((nopBody _cid _f s).state s).core = s.core := by
  rfl
@[simp] theorem State.leaveBaton_core (s : State) (cid : Nat) : (s.leaveBaton cid).core = s.core := by
  unfold State.leaveBaton; split <;> simp
@[simp] theorem State.markDone_core (s : State) (cid : Nat) : (s.markDone cid).core = s.core := by
  simp [State.markDone]
@[simp] theorem State.leaveRow_core (s : State) (cid : Nat) : (s.leaveRow cid).core = s.core := by
  unfold State.leaveRow; (repeat' split) <;> simp
@[simp] theorem doneBody_core (cid : Nat) (_f : Fields) (s : State) : ((doneBody cid _f s).state s).core = s.core := by
  unfold doneBody; dsimp only; (repeat' split) <;> simp [*]
@[simp] theorem trapBody_core (cid : Nat) (f : Fields) (s : State) : ((trapBody cid f s).state s).core = s.core := by
  rfl
@[simp] theorem brkBody_core (_cid : Nat) (f : Fields) (_s : State) : ((brkBody _cid f _s).state _s).core = _s.core := by
  rfl
@[simp] theorem tretBody_core (cid : Nat) (_f : Fields) (s : State) : ((tretBody cid _f s).state s).core = s.core := by
  simp [tretBody]
@[simp] theorem sgetBody_core (cid : Nat) (f : Fields) (s : State) : ((sgetBody cid f s).state s).core = s.core := by
  unfold sgetBody; dsimp only; (repeat' split) <;> simp [*]
@[simp] theorem ssetBody_core (cid : Nat) (f : Fields) (s : State) : ((ssetBody cid f s).state s).core = s.core := by
  simp [ssetBody]
@[simp] theorem yieldBody_core (cid : Nat) (_f : Fields) (s : State) : ((yieldBody cid _f s).state s).core = s.core := by
  simp [yieldBody]
@[simp] theorem perfBody_core (cid : Nat) (f : Fields) (s : State) : ((perfBody cid f s).state s).core = s.core := by
  unfold perfBody; dsimp only; (repeat' split) <;> simp [*]
@[simp] theorem icinvBody_core (cid : Nat) (_f : Fields) (s : State) : ((icinvBody cid _f s).state s).core = s.core := by
  simp [icinvBody]
@[simp] theorem mpointBody_core (cid : Nat) (f : Fields) (s : State) : ((mpointBody cid f s).state s).core = s.core := by
  unfold mpointBody; (repeat' split) <;> simp
@[simp] theorem State.startWalk_core (s : State) (c : Nat) (fn : Nat) (va : Nat) : (s.startWalk c fn va).core = s.core := by
  unfold State.startWalk; dsimp only; (repeat' split) <;> simp [*]
@[simp] theorem State.takeWalks_core (s : State) (d n : Nat) : (s.takeWalks d n).core = s.core := by
  induction n generalizing s with
  | zero => rfl
  | succ n ih => unfold State.takeWalks; dsimp only; (repeat' split) <;> simp [ih]
@[simp] theorem State.nextWalk_core (s : State) (d : Nat) : (s.nextWalk d).core = s.core := by
  simp [State.nextWalk]
@[simp] theorem State.forgetFails_core (s : State) (fn : Nat) : (s.forgetFails fn).core = s.core := by
  rfl
@[simp] theorem State.acquireRow_core (s : State) (cid : Nat) : (s.acquireRow cid).core = s.core := by
  unfold State.acquireRow; split <;> simp
@[simp] theorem fnewBody_core (cid : Nat) (f : Fields) (s : State) : ((fnewBody cid f s).state s).core = s.core := by
  unfold fnewBody; dsimp only; split
  · rename_i h; simpa using State.allocFuture_core _ _ _ _ _ _ h
  · simp
@[simp] theorem fsetBody_core (cid : Nat) (f : Fields) (s : State) : ((fsetBody cid f s).state s).core = s.core := by
  unfold fsetBody; dsimp only; (repeat' split) <;> simp [*]
@[simp] theorem fgetBody_core (cid : Nat) (f : Fields) (s : State) : ((fgetBody cid f s).state s).core = s.core := by
  unfold fgetBody; dsimp only; (repeat' split) <;> simp [*]
@[simp] theorem fwaitBody_core (cid : Nat) (f : Fields) (s : State) : ((fwaitBody cid f s).state s).core = s.core := by
  unfold fwaitBody; dsimp only; (repeat' split) <;> simp [*]
@[simp] theorem ftestBody_core (cid : Nat) (f : Fields) (s : State) : ((ftestBody cid f s).state s).core = s.core := by
  unfold ftestBody; dsimp only; (repeat' split) <;> simp [*]
@[simp] theorem fmovBody_core (cid : Nat) (f : Fields) (s : State) : ((fmovBody cid f s).state s).core = s.core := by
  simp [fmovBody]
@[simp] theorem fcancelBody_core (cid : Nat) (f : Fields) (s : State) : ((fcancelBody cid f s).state s).core = s.core := by
  unfold fcancelBody; dsimp only; (repeat' split) <;> simp [*]
theorem State.arriveAt_core (s : State) (cid : Nat) (band : Option Nat) (k : Nat) (r : State × Word32) : (s.arriveAt cid band k) = some r → r.1.core = s.core := by
  unfold State.arriveAt; dsimp only; split
  · intro h; cases h
  · split
    · intro h; cases h
    · intro h; cases h; simp
@[simp] theorem awaitAt_core (s : State) (cid : Nat) (band : Option Nat) (k : Nat) (tok : Word32) (st : Stage) : ((awaitAt s cid band k tok st).state s).core = s.core := by
  unfold awaitAt; split <;> simp
@[simp] theorem arriveBody_core (cid : Nat) (f : Fields) (s : State) : ((arriveBody cid f s).state s).core = s.core := by
  unfold arriveBody; split
  · rename_i h; simpa using State.arriveAt_core _ _ _ _ _ h
  · simp
@[simp] theorem awaitBody_core (cid : Nat) (f : Fields) (s : State) : ((awaitBody cid f s).state s).core = s.core := by
  simp [awaitBody]
@[simp] theorem barBody_core (cid : Nat) (f : Fields) (s : State) : ((barBody cid f s).state s).core = s.core := by
  unfold barBody; dsimp only; split
  · simp
  · split
    · rename_i h
      have := State.arriveAt_core _ _ _ _ _ h
      unfold awaitAt; (repeat' split) <;> simpa using this
    · simp
@[simp] theorem State.deliverWake_core (s : State) (cid : Nat) (serial : Nat) (reason : Nat) : (s.deliverWake cid serial reason).core = s.core := by
  unfold State.deliverWake; (repeat' split) <;> simp
@[simp] theorem State.armWatch_core (s : State) (cid : Nat) (sp : Option Space) (line : Nat) (addr : Word64) : (s.armWatch cid sp line addr).core = s.core := by
  unfold State.armWatch; (repeat' split) <;> simp
@[simp] theorem State.rewatch_core (s : State) (cid : Nat) (sp : Option Space) (line : Nat) (addr : Word64) : (s.rewatch cid sp line addr).core = s.core := by
  simp [State.rewatch]
@[simp] theorem monArm_core (s : State) (cid : Nat) (sp : Option Space) (line : Nat) (delay : Nat) : ((monArm s cid sp line delay).state s).core = s.core := by
  simp [monArm]
@[simp] theorem monAsk_core (cid : Nat) (f : Fields) (until_ : Nat) (s : State) : ((monAsk cid f until_ s).state s).core = s.core := by
  unfold monAsk; dsimp only; (repeat' split) <;> simp [*]
@[simp] theorem monHome_core (cid : Nat) (f : Fields) (sp : Option Space) (line : Nat) (s : State) : ((monHome cid f sp line s).state s).core = s.core := by
  unfold monHome; dsimp only; (repeat' split) <;> simp
@[simp] theorem monBody_core (cid : Nat) (f : Fields) (s : State) : ((monBody cid f s).state s).core = s.core := by
  unfold monBody; (repeat' split) <;> simp
@[simp] theorem mwaitReturn_core (s : State) (cid : Nat) (f : Fields) (r : Nat) : ((mwaitReturn s cid f r).state s).core = s.core := by
  simp [mwaitReturn]
@[simp] theorem mwaitBody_core (cid : Nat) (f : Fields) (s : State) : ((mwaitBody cid f s).state s).core = s.core := by
  unfold mwaitBody; dsimp only; (repeat' split) <;> simp [*]
@[simp] theorem State.answerRow_core (s : State) (cid : Nat) (v : Word64) : (s.answerRow cid v).core = s.core := by
  simp [State.answerRow]
@[simp] theorem serveTakers_core (s : State) (blk : Nat) (l : List Nat) : (serveTakers s blk l).core = s.core := by
  induction l generalizing s with
  | nil => rfl
  | cons t ts ih => unfold serveTakers; (repeat' split) <;> simp [ih]
@[simp] theorem State.giveRange_core (s : State) (thief : Nat) (lo : Nat) (hi : Nat) : (s.giveRange thief lo hi).core = s.core := by
  unfold State.giveRange; split <;> simp
@[simp] theorem State.askNext_core (s : State) (thief : Nat) (done : List Nat) (n past : Nat) : (s.askNext thief done n past).core = s.core := by
  induction n generalizing s done past with
  | zero => rfl
  | succ n ih => unfold State.askNext; (repeat' split) <;> simp [ih, foldl_core]
@[simp] theorem State.steal_core (s : State) (thief : Nat) : (s.steal thief).core = s.core := by
  simp [State.steal]
@[simp] theorem State.answerThief_core (s : State) (blk : Nat) (thief : Nat) : (s.answerThief blk thief).core = s.core := by
  unfold State.answerThief; (repeat' split) <;> simp
@[simp] theorem State.answerThieves_core (s : State) (blk : Nat) : (s.answerThieves blk).core = s.core := by
  unfold State.answerThieves; split
  · rfl
  · rw [foldl_core _ (fun s th => by simp)]; simp
@[simp] theorem State.setRange_core (s : State) (blk : Nat) (b : Block) (lo : Nat) (hi : Nat) : (s.setRange blk b lo hi).core = s.core := by
  unfold State.setRange; split <;> simp
@[simp] theorem State.serveRange_core (s : State) (blk : Nat) (r : RangeReq) : (s.serveRange blk r).core = s.core := by
  unfold State.serveRange; dsimp only; (repeat' split) <;> simp [*]
@[simp] theorem State.serveRanges_core (s : State) (g : Nat) : (s.serveRanges g).core = s.core := by
  unfold State.serveRanges; dsimp only; rw [foldl_core]; intro s e; split
  · exact foldl_core _ (fun s r => by simp) _ _
  · rfl
@[simp] theorem rinitBody_core (cid : Nat) (f : Fields) (s : State) : ((rinitBody cid f s).state s).core = s.core := by
  unfold rinitBody rangeBody; dsimp only; (repeat' split) <;> simp
@[simp] theorem rtakeBody_core (cid : Nat) (f : Fields) (s : State) : ((rtakeBody cid f s).state s).core = s.core := by
  unfold rtakeBody rangeBody; dsimp only; (repeat' split) <;> simp
@[simp] theorem State.setTile_core (s : State) (g : Nat) (n : Nat) (t : Tile) : (s.setTile g n t).core = s.core := by
  rfl
@[simp] theorem State.emptySlot_core (s : State) (g : Nat) (n : Nat) : (s.emptySlot g n).core = s.core := by
  unfold State.emptySlot; dsimp only; (repeat' split) <;> simp [*]
@[simp] theorem State.writeHandle_core (s : State) (cid : Nat) (d : Operand) (h : Word32) : (s.writeHandle cid d h).core = s.core := by
  unfold State.writeHandle; split <;> simp
theorem State.engineFuture_core (s : State) (cid : Nat) (r : State × Word32) : (s.engineFuture cid) = some r → r.1.core = s.core := by
  exact State.allocFuture_core _ _ _ _ _ _
@[simp] theorem mloopBody_core (op : Nat) (cid : Nat) (f : Fields) (s : State) : ((mloopBody op cid f s).state s).core = s.core := by
  unfold mloopBody; dsimp only; split
  · simp
  · split
    · rename_i h; have := State.engineFuture_core _ _ _ h; simpa using this
    · simp
@[simp] theorem mstepBody_core (op : Nat) (cid : Nat) (f : Fields) (s : State) : ((mstepBody op cid f s).state s).core = s.core := by
  simp [mstepBody]
@[simp] theorem State.releaseSlots_core (s : State) (g : Nat) : (s.releaseSlots g).core = s.core := by
  unfold State.releaseSlots; dsimp only; (repeat' split) <;> simp [*, foldl_core]
@[simp] theorem resume_core (s : State) (cid : Nat) (l : Loop) : (resume s cid l).1.core = s.core := by
  unfold resume; split <;> simp
@[simp] theorem stepNow_core (s : State) (cid : Nat) (l : Loop) : (stepNow s cid l).core = s.core := by
  unfold stepNow; dsimp only; (repeat' split) <;> simp [*]
@[simp] theorem azeroBody_core (cid : Nat) (f : Fields) (s : State) : ((azeroBody cid f s).state s).core = s.core := by
  simp [azeroBody]
@[simp] theorem amovBody_core (op : Nat) (cid : Nat) (f : Fields) (s : State) : ((amovBody op cid f s).state s).core = s.core := by
  simp [amovBody, foldl_core]
@[simp] theorem astBody_core (op : Nat) (cid : Nat) (f : Fields) (s : State) : ((astBody op cid f s).state s).core = s.core := by
  unfold astBody; dsimp only; (repeat' split) <;> simp [*, foldl_core]
@[simp] theorem bpassBody_core (cid : Nat) (f : Fields) (s : State) : ((bpassBody cid f s).state s).core = s.core := by
  unfold bpassBody; (repeat' split) <;> simp
@[simp] theorem State.fireHome_core (s : State) (line : Nat) : (s.fireHome line).core = s.core := by
  unfold State.fireHome; dsimp only; (repeat' split) <;> simp [*]
@[simp] theorem State.ackWrite_core (s : State) (n : Nat) : (s.ackWrite n).core = s.core := by
  rfl
@[simp] theorem State.setDline_core (s : State) (d : Nat) (key : Nat) (l : DLine) : (s.setDline d key l).core = s.core := by
  rfl
@[simp] theorem acceptOp_core (op : Nat) (cid : Nat) (f : Fields) (o : LeatOp) (s : State) : ((acceptOp op cid f o s).state s).core = s.core := by
  unfold acceptOp; split
  · simp
  · rename_i h; have := State.engineFuture_core _ _ _ h; simpa using this
@[simp] theorem copyBody_core (op : Nat) (kind : LeatKind) (list : Bool) (cid : Nat) (f : Fields) (s : State) : ((copyBody op kind list cid f s).state s).core = s.core := by
  unfold copyBody; dsimp only; (repeat' split) <;> simp [*]
@[simp] theorem fillBody_core (op : Nat) (list : Bool) (cid : Nat) (f : Fields) (s : State) : ((fillBody op list cid f s).state s).core = s.core := by
  unfold fillBody; dsimp only; split
  · simp
  · unfold acceptOp; split
    · simp
    · rename_i h; have := State.engineFuture_core _ _ _ h; simpa using this
@[simp] theorem cpyBody_core (op : Nat) (cid : Nat) (f : Fields) (s : State) : ((cpyBody op cid f s).state s).core = s.core := by
  simp [cpyBody]
@[simp] theorem cpygBody_core (op : Nat) (cid : Nat) (f : Fields) (s : State) : ((cpygBody op cid f s).state s).core = s.core := by
  unfold cpygBody; split <;> simp
@[simp] theorem cpysBody_core (op : Nat) (cid : Nat) (f : Fields) (s : State) : ((cpysBody op cid f s).state s).core = s.core := by
  simp [cpysBody]
@[simp] theorem cpytBody_core (op : Nat) (cid : Nat) (f : Fields) (s : State) : ((cpytBody op cid f s).state s).core = s.core := by
  simp [cpytBody]
@[simp] theorem cpydBody_core (op : Nat) (cid : Nat) (f : Fields) (s : State) : ((cpydBody op cid f s).state s).core = s.core := by
  unfold cpydBody; dsimp only; split
  · simp
  · unfold acceptOp; split
    · simp
    · rename_i h; have := State.engineFuture_core _ _ _ h; simpa using this
@[simp] theorem gatomBody_core (op : Nat) (cid : Nat) (f : Fields) (s : State) : ((gatomBody op cid f s).state s).core = s.core := by
  unfold gatomBody; dsimp only; (repeat' split) <;> simp [*]
@[simp] theorem tclaimBody_core (cid : Nat) (f : Fields) (s : State) : ((tclaimBody cid f s).state s).core = s.core := by
  unfold tclaimBody; dsimp only; (repeat' split) <;> simp [*]
@[simp] theorem trelBody_core (cid : Nat) (f : Fields) (s : State) : ((trelBody cid f s).state s).core = s.core := by
  simp [trelBody]
@[simp] theorem tstatBody_core (cid : Nat) (f : Fields) (s : State) : ((tstatBody cid f s).state s).core = s.core := by
  simp [tstatBody]
@[simp] theorem State.updOp_core (s : State) (g : Nat) (id : Nat) (f : LeatOp → LeatOp) : (s.updOp g id f).core = s.core := by
  rfl
@[simp] theorem State.opSent_core (s : State) (g : Nat) (o : LeatOp) : (s.opSent g o).core = s.core := by
  unfold State.opSent; dsimp only; (repeat' split) <;> simp [*]
@[simp] theorem State.updBeat_core (s : State) (g : Nat) (op : Nat) (id : Nat) (f : Beat → Beat) : (s.updBeat g op id f).core = s.core := by
  rfl
@[simp] theorem State.bankOp_core (s : State) (cid : Nat) (op : Nat) (f : Fields) (m : Word32) (lat : Nat) : (s.bankOp cid op f m lat).core = s.core := by
  simp [State.bankOp]
@[simp] theorem State.takeMasks_core (s : State) (g : Nat) : (s.takeMasks g).core = s.core := by
  exact foldl_core _ (fun s e => by (repeat' split) <;> simp) _ _
@[simp] theorem State.takeMask_core (s : State) (cid : Nat) (m : Word32) : (s.takeMask cid m).core = s.core := by
  simp [State.takeMask]
@[simp] theorem bkmodeBody_core (cid : Nat) (f : Fields) (s : State) : ((bkmodeBody cid f s).state s).core = s.core := by
  unfold bkmodeBody; dsimp only; (repeat' split) <;> simp [*]
@[simp] theorem bkgetBody_core (op : Nat) (cid : Nat) (f : Fields) (s : State) : ((bkgetBody op cid f s).state s).core = s.core := by
  unfold bkgetBody; dsimp only; (repeat' split) <;> simp [*]
@[simp] theorem State.linkOut_core (s : State) (acc : Nat) (bs : List Byte) : (s.linkOut acc bs).core = s.core := by
  unfold State.linkOut; split <;> simp
@[simp] theorem State.dropRetained_core (s : State) (src : Nat) (m : Nat) (f : Nat) (t : Nat) : (s.dropRetained src m f t).core = s.core := by
  rfl
@[simp] theorem State.lowMoved_core (s : State) (m : Nat) (f : Nat) : (s.lowMoved m f).core = s.core := by
  unfold State.lowMoved; dsimp only; split
  · rfl
  · rw [foldl_core _ (fun s a => by split <;> simp)]; simp
@[simp] theorem State.formBlock_core (s : State) (m : Nat) (recs : List BinRec) : (s.formBlock m recs).core = s.core := by
  unfold State.formBlock; split
  · rfl
  · dsimp only; split <;> simp <;> rfl
@[simp] theorem State.launchFrom_core (s : State) (m : Nat) (b : Bin) (timed : Bool) : (s.launchFrom m b timed).core = s.core := by
  unfold State.launchFrom; (repeat' split) <;> simp
@[simp] theorem State.toBin_core (s : State) (m : Nat) (r : BinRec) : (s.toBin m r).core = s.core := by
  rfl
@[simp] theorem State.startNode_core (s : State) (r : Nat) (node : Nat) : (s.startNode r node).core = s.core := by
  unfold State.startNode; split
  · rfl
  · dsimp only; split
    · simp
    · rw [foldl_core _ (fun s a => by simp)]; rfl
@[simp] theorem State.settleWork_core (s : State) (h : Option Word32) (status : Nat) : (s.settleWork h status).core = s.core := by
  unfold State.settleWork; (repeat' split) <;> simp
@[simp] theorem qnewAnswer_core (s : State) (fn : Nat) (w : Word64) (base : Word64) : (qnewAnswer s fn w base).1.core = s.core := by
  unfold qnewAnswer; dsimp only; (repeat' split) <;> simp [*]
@[simp] theorem qnewBody_core (cid : Nat) (f : Fields) (s : State) : ((qnewBody cid f s).state s).core = s.core := by
  unfold qnewBody; dsimp only; split <;> simp
@[simp] theorem qdelBody_core (cid : Nat) (f : Fields) (s : State) : ((qdelBody cid f s).state s).core = s.core := by
  unfold qdelBody; dsimp only; (repeat' split) <;> simp [*]
@[simp] theorem State.retain_core (s : State) (src : Nat) (seq : Nat) (status : Nat) (m : Nat) : (s.retain src seq status m).1.core = s.core := by
  rfl
@[simp] theorem State.answered_core (s : State) (i : Invoked) (status : Nat) : (s.answered i status).core = s.core := by
  simp [State.answered]
@[simp] theorem workFuture_core (s : State) (cid : Nat) (f : Fields) : (workFuture s cid f).1.core = s.core := by
  unfold workFuture; split
  · rfl
  · split
    · rename_i h; have := State.engineFuture_core _ _ _ h; simpa using this
    · rfl
@[simp] theorem State.hold_core (s : State) (h : Held) : (s.hold h).core = s.core := by
  unfold State.hold; split <;> simp
@[simp] theorem emitBody_core (inv : Bool) (cid : Nat) (f : Fields) (s : State) : ((emitBody inv cid f s).state s).core = s.core := by
  unfold emitBody; dsimp only; (repeat' split) <;> simp [*]
@[simp] theorem State.dropCode_core (s : State) (fn : Nat) (rs : List Region) (g : Nat) : (s.dropCode fn rs g).core = s.core := by
  unfold State.dropCode; split <;> simp
@[simp] theorem State.noteHeld_core (s : State) (t : Nat) : (s.noteHeld t).core = s.core := by
  unfold State.noteHeld; split <;> simp
@[simp] theorem State.hasRdone_core (s : State) (blk : Nat) : (s.hasRdone blk).core = s.core := by
  simp [State.hasRdone]
@[simp] theorem rdoneBody_core (cid : Nat) (f : Fields) (s : State) : ((rdoneBody cid f s).state s).core = s.core := by
  have h0 : ∀ r, (if f.nowb then some (s, none) else (s.engineFuture cid).map fun p => (p.1.writeHandle cid f.d p.2, some p.2)) = some r → r.1.core = s.core := by
    intro r h; split at h
    · cases h; rfl
    · obtain ⟨p, hp, rfl⟩ := Option.map_eq_some_iff.mp h
      simpa using State.engineFuture_core _ _ _ hp
  unfold rdoneBody; dsimp only; split
  · simp
  · rename_i h; have := h0 _ h
    (repeat' split) <;> simpa using this
@[simp] theorem State.vacate_core (s : State) (cid : Nat) : (s.vacate cid).core = s.core := by
  unfold State.vacate; dsimp only; (repeat' split) <;> simp [*]
@[simp] theorem State.releaseBlock_core (s : State) (b : Nat) : (s.releaseBlock b).core = s.core := by
  simp [State.releaseBlock, foldl_core]
@[simp] theorem State.forgetBlocks_core (s : State) (t : Nat) : (s.forgetBlocks t).core = s.core := by
  rfl
@[simp] theorem State.endTask_core (s : State) (t : Nat) (tk : Task) : (s.endTask t tk).core = s.core := by
  unfold State.endTask; (repeat' split) <;> simp
@[simp] theorem State.freeTaskFutures_core (s : State) (r : Nat) : (s.freeTaskFutures r).core = s.core := by
  unfold State.freeTaskFutures; split
  · rfl
  · dsimp only; rw [foldl_core _ (fun s a => by split <;> simp)]
@[simp] theorem State.startDue_core (s : State) (e : Nat × Nat × Node) : (s.startDue e).core = s.core := by
  unfold State.startDue; split <;> simp
@[simp] theorem State.reportReplay_core (s : State) (fn : Nat) (image : Mem) (word : Option Nat) : (s.reportReplay fn image word).core = s.core := by
  unfold State.reportReplay; (repeat' split) <;> simp
@[simp] theorem State.markPassed_core (s : State) (m : Nat) (b : Nat) : (s.markPassed m b).core = s.core := by
  simp [State.markPassed]
@[simp] theorem State.noteAll_core (s : State) (m : Nat) : (s.noteAll m).core = s.core := by
  exact foldl_core _ (fun s e => by split <;> simp) _ _
@[simp] theorem State.askLine_core (s : State) (g : Nat) (fn : Nat) (line : Nat) : (s.askLine g fn line).core = s.core := by
  unfold State.askLine; (repeat' split) <;> simp
@[simp] theorem State.tendBuffer_core (s : State) (cid : Nat) : (s.tendBuffer cid).core = s.core := by
  unfold State.tendBuffer; dsimp only; (repeat' split) <;> simp [*]
@[simp] theorem State.recordReg_core (s : State) (cid : Nat) (array : Nat) (n : Nat) : (s.recordReg cid array n).core = s.core := by
  simp [State.recordReg]
@[simp] theorem State.remapLine_core (s : State) (u : Nat) (array : Nat) (line : Nat) : (s.remapLine u array line).core = s.core := by
  unfold State.remapLine; (repeat' split) <;> simp
@[simp] theorem State.transientError_core (s : State) (e : ErrSite) : (s.transientError e).core = s.core := by
  unfold State.transientError; split <;> simp
@[simp] theorem State.reclass_core (s : State) (g : Nat) : (s.reclass g).core = s.core := by
  unfold State.reclass; dsimp only; (repeat' split) <;> simp [*]
@[simp] theorem State.grant_core (s : State) (a : Asked) : (s.grant a).core = s.core := by
  unfold State.grant; split <;> simp
@[simp] theorem grantAt_core (g k : Nat) (s : State) : (grantAt g k s).core = s.core := by
  induction k generalizing s with
  | zero => rfl
  | succ k ih =>
    unfold grantAt; dsimp only; split
    · split <;> simp [ih]
    · refine foldl_core _ (fun s a => ?_) _ _; split <;> simp
@[simp] theorem State.holdBlock_core (s : State) (b : Nat) : (s.holdBlock b).core = s.core := by
  unfold State.holdBlock; rw [State.mapCtxs_core]; exact foldl_core _ (fun t e => by simp) _ _
@[simp] theorem State.dropUnsent_core (s : State) (b : Nat) : (s.dropUnsent b).core = s.core := by
  rfl
@[simp] theorem State.unask_core (s : State) (blk : Nat) : (s.unask blk).core = s.core := by
  rfl
@[simp] theorem State.requeue_core (s : State) (b : Nat) (bin : Nat) : (s.requeue b bin).core = s.core := by
  rfl
@[simp] theorem State.wakesNow_core (s : State) (blk : Nat) : (s.wakesNow blk).core = s.core := by
  simp [State.wakesNow, foldl_core]
@[simp] theorem State.unhold_core (s : State) (g : Nat) : (s.unhold g).core = s.core := by
  rfl
@[simp] theorem State.dropBlock_core (s : State) (b : Nat) : (s.dropBlock b).core = s.core := by
  unfold State.dropBlock; simp only [State.freeOwned_core, State.releaseBlock_core]; rw [foldl_core _ (fun s h => by simp)]
  exact foldl_core _ (fun t e => by simp) _ _
@[simp] theorem State.dropLostRecs_core (s : State) : (s.dropLostRecs).core = s.core := by
  rfl
@[simp] theorem State.refuse_core (s : State) (fn : Nat) (slotRel : Nat) (status : Nat) : (s.refuse fn slotRel status).core = s.core := by
  rfl
@[simp] theorem State.startReplay_core (s : State) (fn : Nat) (slot : Nat) (kick : Nat) (image : Mem) : (s.startReplay fn slot kick image).core = s.core := by
  unfold State.startReplay; dsimp only; split
  · rw [State.reportReplay_core]; rfl
  · rw [foldl_core _ (fun s h => by simp)]; rfl
@[simp] theorem State.uploadInvalidate_core (s : State) : (s.uploadInvalidate).core = s.core := by
  rfl
@[simp] theorem State.dropQueues_core (s : State) (slot : Nat) : (s.dropQueues slot).core = s.core := by
  rfl
@[simp] theorem State.resetWindows_core (s : State) (split : Nat) : (s.resetWindows split).core = s.core := by
  rfl
@[simp] theorem State.spdm_core (s : State) (code : Byte) (data : List Byte) : (s.spdm code data).core = s.core := by
  unfold State.spdm; split <;> simp
@[simp] theorem State.assignBaton_core (s : State) (p : Nat) : (s.assignBaton p).core = s.core := by
  unfold State.assignBaton; dsimp only; (repeat' split) <;> simp [*]
@[simp] theorem State.yieldBaton_core (s : State) (p : Nat) (ready : List Nat) : (s.yieldBaton p ready).core = s.core := by
  unfold State.yieldBaton; (repeat' split) <;> simp
@[simp] theorem State.chosen_core (s : State) (c : Nat) (round : Round) : (s.chosen c round).core = s.core := by
  rfl
@[simp] theorem State.countUnchosen_core (s : State) (ready : List Nat) (c : Option Nat) : (s.countUnchosen ready c).core = s.core := by
  exact foldl_core _ (fun s e => by split <;> simp) _ _

/-- An attempt to issue leaves the core alone when the meaning does. -/
theorem State.attempt_core (s : State) (cid op : Nat) (f : Fields) (i : Instr) (body : Nat → Fields → State → Res)
    (hb : ∀ s0, ((body cid f s0).state s0).core = s0.core) : (s.attempt cid op f i body).core = s.core := by
  have h := hb s
  unfold State.attempt; dsimp only; split
  · simp
  · split <;> simp
  · simp
  · simp
  · simp
  · split <;> rename_i e <;> rw [e] at h <;> simp at h ⊢ <;> exact h
/-- Issuing leaves the core alone when the meaning does. -/
theorem issue_core (i : Instr) (op : Nat) (f : Fields) (body : Nat → Fields → State → Res) (s t : State)
    (hb : ∀ cid s0, ((body cid f s0).state s0).core = s0.core) (h : issue i op f body s = .next t) : t.core = s.core := by
  unfold issue at h; split at h
  · cases h; rfl
  · split at h
    · cases h; exact State.attempt_core s _ op f i body (hb _)
    · cases h; simp
theorem issueShort_core (i : Instr) (body : Nat → Nat → Fields → State → Res) (s t : State)
    (hb : ∀ op f cid s0, ((body op cid f s0).state s0).core = s0.core) (h : issueShort i body s = .next t) : t.core = s.core := by
  unfold issueShort at h; split at h
  · exact issue_core _ _ _ _ _ _ (hb _ _) h
  · cases h; rfl

end Sys2Proof.Machine
end

