-- ==== Sys2Proof/Laws/Registers.lean ====
section
/-! SUPPORT. The registers of a context (State.fileOf) under every operation that a program's instruction performs: one lemma
each; those with a hypothesis speak of the other contexts only. -/
namespace Sys2Proof.Machine

theorem foldl_fileOf {α : Type} {c : Nat} (f : State → α → State) (h : ∀ s a, (f s a).fileOf c = s.fileOf c) (l : List α) (s : State) :
    (l.foldl f s).fileOf c = s.fileOf c := by
  induction l generalizing s with
  | nil => rfl
  | cons a l ih => rw [List.foldl_cons, ih, h]
theorem State.fileOf_setCtx_ne (s : State) {c cid : Nat} (x : Ctx) (h : c ≠ cid) : (s.setCtx cid x).fileOf c = s.fileOf c := by
  simp [State.fileOf, State.ctx?, State.setCtx, h]
theorem State.fileOf_setCtx_same (s : State) (c : Nat) {cid : Nat} {y x : Ctx} (hx : s.ctx? cid = some y) (h : x.file = y.file) :
    (s.setCtx cid x).fileOf c = s.fileOf c := by
  by_cases e : c = cid
  · subst e; simp [State.fileOf, State.ctx?, State.setCtx, h] at *; simp [hx]
  · exact State.fileOf_setCtx_ne s x e
theorem State.fileOf_updCtx_ne (s : State) {c cid : Nat} (f : Ctx → Ctx) (h : c ≠ cid) : (s.updCtx cid f).fileOf c = s.fileOf c := by
  unfold State.updCtx; split
  · exact State.fileOf_setCtx_ne s _ h
  · rfl
theorem State.fileOf_updCtx_same (s : State) (c cid : Nat) (f : Ctx → Ctx) (h : ∀ x, (f x).file = x.file) :
    (s.updCtx cid f).fileOf c = s.fileOf c := by
  unfold State.updCtx; split
  · rename_i hx; exact State.fileOf_setCtx_same s c hx (h _)
  · rfl
theorem State.fileOf_mapCtxs (s : State) (c : Nat) (f : Nat → Ctx → Ctx) (h : ∀ k x, (f k x).file = x.file) :
    (s.mapCtxs f).fileOf c = s.fileOf c := by
  simp only [State.fileOf, State.ctx?, State.mapCtxs, Tables.get?_mapVal, Option.map_map]
  cases Tables.get? s.ctxs c <;> simp [h]
@[simp] theorem Ctx.settled_file (x : Ctx) (h : Word32) (state cause : Nat) (addr : Word64) : (x.settled h state cause addr).file = x.file := rfl
@[simp] theorem fileOf_with_side_writer (s : State) (x : Mem) (y : Tbl Nat) (c : Nat) : State.fileOf { s with side := x, sideWriter := y } c = s.fileOf c := rfl
@[simp] theorem fileOf_with_scratch_writer (s : State) (x : Mem) (y : Tbl Nat) (c : Nat) : State.fileOf { s with scratch := x, scratchWriter := y } c = s.fileOf c := rfl
theorem State.fileOf_of_ctxs {t s : State} (h : t.ctxs = s.ctxs) (c : Nat) : t.fileOf c = s.fileOf c := by
  simp [State.fileOf, State.ctx?, h]
@[simp] theorem State.setRow_fileOf (s : State) (p : Nat) (x : PhysRow) (c_ : Nat) : (s.setRow p x).fileOf c_ = s.fileOf c_ := rfl
@[simp] theorem State.setGrid_fileOf (s : State) (g : Nat) (x : Grid) (c_ : Nat) : (s.setGrid g x).fileOf c_ = s.fileOf c_ := rfl
@[simp] theorem State.setCluster_fileOf (s : State) (c : Nat) (x : Cluster) (c_ : Nat) : (s.setCluster c x).fileOf c_ = s.fileOf c_ := rfl
@[simp] theorem State.setCdie_fileOf (s : State) (d : Nat) (x : CDie) (c_ : Nat) : (s.setCdie d x).fileOf c_ = s.fileOf c_ := rfl
@[simp] theorem State.setMdie_fileOf (s : State) (m : Nat) (x : MDie) (c_ : Nat) : (s.setMdie m x).fileOf c_ = s.fileOf c_ := rfl
@[simp] theorem State.setBlock_fileOf (s : State) (b : Nat) (x : Block) (c_ : Nat) : (s.setBlock b x).fileOf c_ = s.fileOf c_ := rfl
@[simp] theorem State.setTask_fileOf (s : State) (t : Nat) (x : Task) (c_ : Nat) : (s.setTask t x).fileOf c_ = s.fileOf c_ := rfl
@[simp] theorem State.setReplay_fileOf (s : State) (r : Nat) (x : Replay) (c_ : Nat) : (s.setReplay r x).fileOf c_ = s.fileOf c_ := rfl
@[simp] theorem State.setSlot_fileOf (s : State) (n : Nat) (x : Slot) (c_ : Nat) : (s.setSlot n x).fileOf c_ = s.fileOf c_ := rfl
@[simp] theorem State.setFunc_fileOf (s : State) (f : Nat) (x : Func) (c_ : Nat) : (s.setFunc f x).fileOf c_ = s.fileOf c_ := rfl
@[simp] theorem fileOf_with_cur (s : State) (x : Option Nat) (c : Nat) : State.fileOf { s with cur := x } c = s.fileOf c := rfl
@[simp] theorem fileOf_with_agenda (s : State) (x : List Action) (c : Nat) : State.fileOf { s with agenda := x } c = s.fileOf c := rfl
@[simp] theorem fileOf_with_verdict (s : State) (x : Nat) (c : Nat) : State.fileOf { s with verdict := x } c = s.fileOf c := rfl
@[simp] theorem fileOf_with_inputs (s : State) (x : List Instr) (c : Nat) : State.fileOf { s with inputs := x } c = s.fileOf c := rfl
@[simp] theorem fileOf_with_out (s : State) (x : List Output) (c : Nat) : State.fileOf { s with out := x } c = s.fileOf c := rfl
@[simp] theorem fileOf_with_draws (s : State) (x : Nat) (c : Nat) : State.fileOf { s with draws := x } c = s.fileOf c := rfl
@[simp] theorem fileOf_with_home (s : State) (x : Mem) (c : Nat) : State.fileOf { s with home := x } c = s.fileOf c := rfl
@[simp] theorem fileOf_with_side (s : State) (x : Mem) (c : Nat) : State.fileOf { s with side := x } c = s.fileOf c := rfl
@[simp] theorem fileOf_with_scratch (s : State) (x : Mem) (c : Nat) : State.fileOf { s with scratch := x } c = s.fileOf c := rfl
@[simp] theorem fileOf_with_slotMem (s : State) (x : Mem) (c : Nat) : State.fileOf { s with slotMem := x } c = s.fileOf c := rfl
@[simp] theorem fileOf_with_bankMem (s : State) (x : Mem) (c : Nat) : State.fileOf { s with bankMem := x } c = s.fileOf c := rfl
@[simp] theorem fileOf_with_sideWriter (s : State) (x : Tbl Nat) (c : Nat) : State.fileOf { s with sideWriter := x } c = s.fileOf c := rfl
@[simp] theorem fileOf_with_scratchWriter (s : State) (x : Tbl Nat) (c : Nat) : State.fileOf { s with scratchWriter := x } c = s.fileOf c := rfl
@[simp] theorem fileOf_with_prows (s : State) (x : Tbl PhysRow) (c : Nat) : State.fileOf { s with prows := x } c = s.fileOf c := rfl
@[simp] theorem fileOf_with_grids (s : State) (x : Tbl Grid) (c : Nat) : State.fileOf { s with grids := x } c = s.fileOf c := rfl
@[simp] theorem fileOf_with_clusters (s : State) (x : Tbl Cluster) (c : Nat) : State.fileOf { s with clusters := x } c = s.fileOf c := rfl
@[simp] theorem fileOf_with_cdies (s : State) (x : Tbl CDie) (c : Nat) : State.fileOf { s with cdies := x } c = s.fileOf c := rfl
@[simp] theorem fileOf_with_mdies (s : State) (x : Tbl MDie) (c : Nat) : State.fileOf { s with mdies := x } c = s.fileOf c := rfl
@[simp] theorem fileOf_with_blocks (s : State) (x : Tbl Block) (c : Nat) : State.fileOf { s with blocks := x } c = s.fileOf c := rfl
@[simp] theorem fileOf_with_tasks (s : State) (x : Tbl Task) (c : Nat) : State.fileOf { s with tasks := x } c = s.fileOf c := rfl
@[simp] theorem fileOf_with_replays (s : State) (x : Tbl Replay) (c : Nat) : State.fileOf { s with replays := x } c = s.fileOf c := rfl
@[simp] theorem fileOf_with_slots (s : State) (x : Tbl Slot) (c : Nat) : State.fileOf { s with slots := x } c = s.fileOf c := rfl
@[simp] theorem fileOf_with_funcs (s : State) (x : Tbl Func) (c : Nat) : State.fileOf { s with funcs := x } c = s.fileOf c := rfl
@[simp] theorem fileOf_with_queues (s : State) (x : Tbl Queue) (c : Nat) : State.fileOf { s with queues := x } c = s.fileOf c := rfl
@[simp] theorem fileOf_with_nextBlock (s : State) (x : Nat) (c : Nat) : State.fileOf { s with nextBlock := x } c = s.fileOf c := rfl
@[simp] theorem fileOf_with_nextTask (s : State) (x : Nat) (c : Nat) : State.fileOf { s with nextTask := x } c = s.fileOf c := rfl
@[simp] theorem fileOf_with_nextReplay (s : State) (x : Nat) (c : Nat) : State.fileOf { s with nextReplay := x } c = s.fileOf c := rfl
@[simp] theorem fileOf_with_watchSerial (s : State) (x : Nat) (c : Nat) : State.fileOf { s with watchSerial := x } c = s.fileOf c := rfl
@[simp] theorem fileOf_with_wakes (s : State) (x : List (Nat × Nat × Nat)) (c : Nat) : State.fileOf { s with wakes := x } c = s.fileOf c := rfl
@[simp] theorem fileOf_with_kickCount (s : State) (x : Nat) (c : Nat) : State.fileOf { s with kickCount := x } c = s.fileOf c := rfl
@[simp] theorem fileOf_with_accId (s : State) (x : Nat) (c : Nat) : State.fileOf { s with accId := x } c = s.fileOf c := rfl
@[simp] theorem fileOf_with_journal (s : State) (x : List Held) (c : Nat) : State.fileOf { s with journal := x } c = s.fileOf c := rfl
@[simp] theorem fileOf_with_xclk (s : State) (x : Nat) (c : Nat) : State.fileOf { s with xclk := x } c = s.fileOf c := rfl
@[simp] theorem fileOf_with_xgated (s : State) (x : Bool) (c : Nat) : State.fileOf { s with xgated := x } c = s.fileOf c := rfl
@[simp] theorem fileOf_with_invoked (s : State) (x : List Invoked) (c : Nat) : State.fileOf { s with invoked := x } c = s.fileOf c := rfl
@[simp] theorem fileOf_with_sentTo (s : State) (x : List (Nat × Nat × Nat)) (c : Nat) : State.fileOf { s with sentTo := x } c = s.fileOf c := rfl
@[simp] theorem fileOf_with_retireWrites (s : State) (x : List RetireW) (c : Nat) : State.fileOf { s with retireWrites := x } c = s.fileOf c := rfl
@[simp] theorem fileOf_with_retained (s : State) (x : List Retained) (c : Nat) : State.fileOf { s with retained := x } c = s.fileOf c := rfl
@[simp] theorem fileOf_with_peerWrites (s : State) (x : List Nat) (c : Nat) : State.fileOf { s with peerWrites := x } c = s.fileOf c := rfl
@[simp] theorem fileOf_with_heldBacks (s : State) (x : List (Nat × Nat × List Byte)) (c : Nat) : State.fileOf { s with heldBacks := x } c = s.fileOf c := rfl
@[simp] theorem fileOf_with_heldReqs (s : State) (x : List Instr) (c : Nat) : State.fileOf { s with heldReqs := x } c = s.fileOf c := rfl
@[simp] theorem fileOf_with_lostTasks (s : State) (x : List Nat) (c : Nat) : State.fileOf { s with lostTasks := x } c = s.fileOf c := rfl
@[simp] theorem fileOf_with_flash (s : State) (x : Option (Signature × Nat)) (c : Nat) : State.fileOf { s with flash := x } c = s.fileOf c := rfl
@[simp] theorem fileOf_with_peerNext (s : State) (x : Nat) (c : Nat) : State.fileOf { s with peerNext := x } c = s.fileOf c := rfl
@[simp] theorem fileOf_with_fenceOrder (s : State) (x : Nat) (c : Nat) : State.fileOf { s with fenceOrder := x } c = s.fileOf c := rfl
@[simp] theorem fileOf_with_ranges (s : State) (x : Tbl RangeEntry) (c : Nat) : State.fileOf { s with ranges := x } c = s.fileOf c := rfl
@[simp] theorem fileOf_with_itable (s : State) (x : List Nat) (c : Nat) : State.fileOf { s with itable := x } c = s.fileOf c := rfl
@[simp] theorem fileOf_with_itmap (s : State) (x : Tbl Word64) (c : Nat) : State.fileOf { s with itmap := x } c = s.fileOf c := rfl
@[simp] theorem fileOf_with_itgen (s : State) (x : Nat) (c : Nat) : State.fileOf { s with itgen := x } c = s.fileOf c := rfl
@[simp] theorem fileOf_with_itbusy (s : State) (x : Bool) (c : Nat) : State.fileOf { s with itbusy := x } c = s.fileOf c := rfl
@[simp] theorem fileOf_with_itstatus (s : State) (x : Nat) (c : Nat) : State.fileOf { s with itstatus := x } c = s.fileOf c := rfl
@[simp] theorem fileOf_with_dsplit (s : State) (x : Nat) (c : Nat) : State.fileOf { s with dsplit := x } c = s.fileOf c := rfl
@[simp] theorem fileOf_with_dsplitLocked (s : State) (x : Bool) (c : Nat) : State.fileOf { s with dsplitLocked := x } c = s.fileOf c := rfl
@[simp] theorem fileOf_with_flushes (s : State) (x : List Flush) (c : Nat) : State.fileOf { s with flushes := x } c = s.fileOf c := rfl
@[simp] theorem fileOf_with_wovlHeld (s : State) (x : Nat) (c : Nat) : State.fileOf { s with wovlHeld := x } c = s.fileOf c := rfl
@[simp] theorem fileOf_with_pwr (s : State) (x : Nat) (c : Nat) : State.fileOf { s with pwr := x } c = s.fileOf c := rfl
@[simp] theorem fileOf_with_plim (s : State) (x : Nat) (c : Nat) : State.fileOf { s with plim := x } c = s.fileOf c := rfl
@[simp] theorem fileOf_with_clamp (s : State) (x : Bool) (c : Nat) : State.fileOf { s with clamp := x } c = s.fileOf c := rfl
@[simp] theorem fileOf_with_ecntDrop (s : State) (x : Nat) (c : Nat) : State.fileOf { s with ecntDrop := x } c = s.fileOf c := rfl
@[simp] theorem fileOf_with_ecntLast (s : State) (x : Nat) (c : Nat) : State.fileOf { s with ecntLast := x } c = s.fileOf c := rfl
@[simp] theorem fileOf_with_ecntTrans (s : State) (x : Nat) (c : Nat) : State.fileOf { s with ecntTrans := x } c = s.fileOf c := rfl
@[simp] theorem fileOf_with_badPages (s : State) (x : List Nat) (c : Nat) : State.fileOf { s with badPages := x } c = s.fileOf c := rfl
@[simp] theorem fileOf_with_hostWins (s : State) (x : List (Nat × Nat)) (c : Nat) : State.fileOf { s with hostWins := x } c = s.fileOf c := rfl
@[simp] theorem fileOf_with_recovery (s : State) (x : Bool) (c : Nat) : State.fileOf { s with recovery := x } c = s.fileOf c := rfl
@[simp] theorem fileOf_with_badLinks (s : State) (x : List (Nat × Nat)) (c : Nat) : State.fileOf { s with badLinks := x } c = s.fileOf c := rfl
@[simp] theorem fileOf_with_badPorts (s : State) (x : List Nat) (c : Nat) : State.fileOf { s with badPorts := x } c = s.fileOf c := rfl
@[simp] theorem fileOf_with_badReduction (s : State) (x : Bool) (c : Nat) : State.fileOf { s with badReduction := x } c = s.fileOf c := rfl
@[simp] theorem fileOf_with_badStacks (s : State) (x : List Nat) (c : Nat) : State.fileOf { s with badStacks := x } c = s.fileOf c := rfl
@[simp] theorem State.updRow_fileOf (s : State) (p : Nat) (f : PhysRow → PhysRow) (c : Nat) :
    (s.updRow p f).fileOf c = s.fileOf c := by
  rfl
@[simp] theorem State.updGrid_fileOf (s : State) (g : Nat) (f : Grid → Grid) (c : Nat) :
    (s.updGrid g f).fileOf c = s.fileOf c := by
  rfl
@[simp] theorem State.updCluster_fileOf (s : State) (c : Nat) (f : Cluster → Cluster) (c_ : Nat) :
    (s.updCluster c f).fileOf c_ = s.fileOf c_ := by
  rfl
@[simp] theorem State.updCdie_fileOf (s : State) (d : Nat) (f : CDie → CDie) (c : Nat) :
    (s.updCdie d f).fileOf c = s.fileOf c := by
  rfl
@[simp] theorem State.updMdie_fileOf (s : State) (m : Nat) (f : MDie → MDie) (c : Nat) :
    (s.updMdie m f).fileOf c = s.fileOf c := by
  rfl
@[simp] theorem State.updSlot_fileOf (s : State) (n : Nat) (f : Slot → Slot) (c : Nat) :
    (s.updSlot n f).fileOf c = s.fileOf c := by
  rfl
@[simp] theorem State.updFunc_fileOf (s : State) (n : Nat) (f : Func → Func) (c : Nat) :
    (s.updFunc n f).fileOf c = s.fileOf c := by
  rfl
@[simp] theorem State.updBlock_fileOf (s : State) (b : Nat) (f : Block → Block) (c : Nat) :
    (s.updBlock b f).fileOf c = s.fileOf c := by
  unfold State.updBlock; split <;> simp
@[simp] theorem State.updTask_fileOf (s : State) (b : Nat) (f : Task → Task) (c : Nat) :
    (s.updTask b f).fileOf c = s.fileOf c := by
  unfold State.updTask; split <;> simp
@[simp] theorem State.updReplay_fileOf (s : State) (b : Nat) (f : Replay → Replay) (c : Nat) :
    (s.updReplay b f).fileOf c = s.fileOf c := by
  unfold State.updReplay; split <;> simp
@[simp] theorem State.emit_fileOf (s : State) (o : Output) (c : Nat) :
    (s.emit o).fileOf c = s.fileOf c := by
  rfl
@[simp] theorem State.recordLine_fileOf (s : State) (u : Nat) (array : Nat) (line : Nat) (c : Nat) :
    (s.recordLine u array line).fileOf c = s.fileOf c := by
  unfold State.recordLine; (repeat' split) <;> simp
@[simp] theorem State.returnBuckets_fileOf (s : State) (g : Nat) (n : Nat) (c : Nat) :
    (s.returnBuckets g n).fileOf c = s.fileOf c := by
  unfold State.returnBuckets; split <;> simp
@[simp] theorem State.launch_fileOf (s : State) (cid : Nat) (lat : Nat) (writes : List RegWrite) (flags : BitVec 5) (buckets : Nat) (queued : Bool) (canFlag : Bool) (c : Nat) :
    (s.launch cid lat writes flags buckets queued canFlag).fileOf c = s.fileOf c := by
  simp (disch := first | exact fun _ => rfl | exact fun _ _ => rfl | exact fun _ _ => Ctx.settled_file _ _ _ _ _ | assumption | (intros; split <;> rfl) | (intros; simp; done)) [State.launch, State.fileOf_updCtx_same]
@[simp] theorem State.setFuture_fileOf (s : State) (h : Word32) (e : Future) (c : Nat) :
    (s.setFuture h e).fileOf c = s.fileOf c := by
  rfl
theorem State.allocFuture_fileOf (s : State) (c : Nat) (kind : Nat) (owner : Option Nat) (reserve : Nat) (r : State × Word32) (hr : (s.allocFuture c kind owner reserve) = some r) (c_ : Nat) :
    r.1.fileOf c_ = s.fileOf c_ := by
  simp only [State.allocFuture, Option.ite_none_right_eq_some, Option.map_eq_some_iff] at hr; obtain ⟨_, _, _, hr⟩ := hr; rw [← hr]; simp
@[simp] theorem State.freeFuture_fileOf (s : State) (h : Word32) (c : Nat) :
    (s.freeFuture h).fileOf c = s.fileOf c := by
  unfold State.freeFuture; split <;> simp
@[simp] theorem State.mapImages_fileOf (s : State) (f : Ctx → Ctx) (c : Nat) :
    (s.mapImages f).fileOf c = s.fileOf c := by
  rfl
@[simp] theorem State.settle_fileOf (s : State) (h : Word32) (state : Nat) (value : Word64) (cause : Nat) (c : Nat) :
    (s.settle h state value cause).fileOf c = s.fileOf c := by
  unfold State.settle; split
  · rfl
  · split
    · rfl
    · dsimp only; (repeat' split) <;> simp (disch := first | exact fun _ => rfl | exact fun _ _ => rfl | exact fun _ _ => Ctx.settled_file _ _ _ _ _) [State.fileOf_mapCtxs]
@[simp] theorem State.park_fileOf (s : State) (cid : Nat) (w : Wait) (c : Nat) :
    (s.park cid w).fileOf c = s.fileOf c := by
  unfold State.park; split <;> simp (disch := first | exact fun _ => rfl | exact fun _ _ => rfl | exact fun _ _ => Ctx.settled_file _ _ _ _ _ | assumption | (intros; split <;> rfl) | (intros; simp; done)) [State.fileOf_updCtx_same]
@[simp] theorem State.wakeWhere_fileOf (s : State) (p : Nat → Ctx → Bool) (c : Nat) :
    (s.wakeWhere p).fileOf c = s.fileOf c := by
  simp (disch := first | exact fun _ => rfl | exact fun _ _ => rfl | exact fun _ _ => Ctx.settled_file _ _ _ _ _ | assumption | (intros; split <;> rfl) | (intros; simp; done)) [State.wakeWhere, State.fileOf_mapCtxs]
@[simp] theorem State.revoke_fileOf (s : State) (g : Nat) (sp : Space) (off : Nat) (c : Nat) :
    (s.revoke g sp off).fileOf c = s.fileOf c := by
  unfold State.revoke; dsimp only; (repeat' split) <;> simp (disch := first | exact fun _ => rfl | exact fun _ _ => rfl | exact fun _ _ => Ctx.settled_file _ _ _ _ _ | assumption | (intros; split <;> rfl) | (intros; simp; done))
@[simp] theorem State.cacheByte_fileOf (s : State) (g : Nat) (sp : Space) (off : Nat) (b : Byte) (whole : Bool) (c : Nat) :
    (s.cacheByte g sp off b whole).fileOf c = s.fileOf c := by
  unfold State.cacheByte; dsimp only; (repeat' split) <;> simp (disch := first | exact fun _ => rfl | exact fun _ _ => rfl | exact fun _ _ => Ctx.settled_file _ _ _ _ _ | assumption | (intros; split <;> rfl) | (intros; simp; done))
@[simp] theorem State.fireLocal_fileOf (s : State) (sp : Space) (off : Nat) (c : Nat) :
    (s.fireLocal sp off).fileOf c = s.fileOf c := by
  unfold State.fireLocal; dsimp only; (repeat' split) <;> simp (disch := first | exact fun _ => rfl | exact fun _ _ => rfl | exact fun _ _ => Ctx.settled_file _ _ _ _ _ | assumption | (intros; split <;> rfl) | (intros; simp; done))
@[simp] theorem State.homeByte_fileOf (s : State) (g : Nat) (sp : Space) (whole : Bool) (off : Nat) (b : Byte) (c : Nat) :
    (s.homeByte g sp whole off b).fileOf c = s.fileOf c := by
  unfold State.homeByte; dsimp only; (repeat' split) <;> simp
@[simp] theorem State.homeBytes_fileOf (s : State) (g : Nat) (bs : List (Space × Nat × Byte)) (c : Nat) :
    (s.homeBytes g bs).fileOf c = s.fileOf c := by
  unfold State.homeBytes; dsimp only; rw [foldl_fileOf _ (fun s l => by simp), foldl_fileOf _ (fun s a => by simp)]
@[simp] theorem State.queueStore_fileOf (s : State) (cid : Nat) (extra : Nat) (bs : List (Space × Nat × Byte)) (c : Nat) :
    (s.queueStore cid extra bs).fileOf c = s.fileOf c := by
  unfold State.queueStore; split <;> simp (disch := first | exact fun _ => rfl | exact fun _ _ => rfl | exact fun _ _ => Ctx.settled_file _ _ _ _ _ | assumption | (intros; split <;> rfl) | (intros; simp; done)) [State.fileOf_updCtx_same]
@[simp] theorem State.fillLine_fileOf (s : State) (g : Nat) (sp : Space) (off : Nat) (c : Nat) :
    (s.fillLine g sp off).fileOf c = s.fileOf c := by
  unfold State.fillLine; dsimp only; (repeat' split) <;> simp (disch := first | exact fun _ => rfl | exact fun _ _ => rfl | exact fun _ _ => Ctx.settled_file _ _ _ _ _ | assumption | (intros; split <;> rfl) | (intros; simp; done))
@[simp] theorem State.loadBytes_fileOf (s : State) (g : Nat) (sp : Space) (off n : Nat) (c : Nat) :
    (s.loadBytes g sp off n).1.fileOf c = s.fileOf c := by
  induction n generalizing off s with
  | zero => rfl
  | succ n ih => unfold State.loadBytes; split <;> simp [ih]
@[simp] theorem State.releaseBanks_fileOf (s : State) (cid : Nat) (c : Nat) :
    (s.releaseBanks cid).fileOf c = s.fileOf c := by
  unfold State.releaseBanks; dsimp only; (repeat' split) <;> simp (disch := first | exact fun _ => rfl | exact fun _ _ => rfl | exact fun _ _ => Ctx.settled_file _ _ _ _ _ | assumption | (intros; split <;> rfl) | (intros; simp; done)) [State.fileOf_updCtx_same]
@[simp] theorem State.acquire_fileOf (s : State) (g : Nat) (c : Nat) :
    (s.acquire g).fileOf c = s.fileOf c := by
  rfl
@[simp] theorem State.moveBaton_fileOf (s : State) (p : Nat) (pend : List Nat) (h : Option Nat) (t : Nat) (c : Nat) :
    (s.moveBaton p pend h t).fileOf c = s.fileOf c := by
  simp (disch := exact fun _ => rfl) [State.moveBaton, State.fileOf_updCtx_same]
@[simp] theorem State.passBaton_fileOf (s : State) (p : Nat) (keep : Bool) (c : Nat) :
    (s.passBaton p keep).fileOf c = s.fileOf c := by
  unfold State.passBaton; dsimp only; (repeat' split) <;> simp (disch := exact fun _ => rfl) [State.fileOf_updCtx_same]
@[simp] theorem State.freeOwned_fileOf (s : State) (b : Nat) (c : Nat) :
    (s.freeOwned b).fileOf c = s.fileOf c := by
  simp (disch := first | exact fun _ => rfl | exact fun _ _ => rfl | exact fun _ _ => Ctx.settled_file _ _ _ _ _ | assumption | (intros; split <;> rfl) | (intros; simp; done)) [State.freeOwned, foldl_fileOf]
@[simp] theorem State.stopBlock_fileOf (s : State) (b : Nat) (c : Nat) :
    (s.stopBlock b).fileOf c = s.fileOf c := by
  simp (disch := first | exact fun _ => rfl | exact fun _ _ => rfl | exact fun _ _ => Ctx.settled_file _ _ _ _ _ | assumption | (intros; split <;> rfl) | (intros; simp; done)) [State.stopBlock, State.fileOf_mapCtxs, foldl_fileOf]
@[simp] theorem State.unanchor_fileOf (s : State) (m : Nat) (b : Nat) (c : Nat) :
    (s.unanchor m b).fileOf c = s.fileOf c := by
  unfold State.unanchor; split <;> simp
@[simp] theorem State.dropReady_fileOf (s : State) (b : Nat) (x : Block) (c : Nat) :
    (s.dropReady b x).fileOf c = s.fileOf c := by
  unfold State.dropReady State.unanchor; dsimp only; simp only [State.freeOwned_fileOf]; rw [foldl_fileOf _ (fun s h => by simp)]; (repeat' split) <;> simp
@[simp] theorem State.failTask_fileOf (s : State) (t : Nat) (status : Nat) (cause : Nat) (c : Nat) :
    (s.failTask t status cause).fileOf c = s.fileOf c := by
  unfold State.failTask; split
  · rfl
  · split
    · rfl
    · dsimp only; (repeat' split) <;> (try simp only [State.updReplay_fileOf, State.freeFuture_fileOf, State.settle_fileOf]) <;>
        rw [foldl_fileOf _ (fun s e => by split <;> simp), foldl_fileOf _ (fun s h => by split <;> simp)] <;> rfl
@[simp] theorem State.abortBlock_fileOf (s : State) (b : Nat) (cause : Nat) (c : Nat) :
    (s.abortBlock b cause).fileOf c = s.fileOf c := by
  unfold State.abortBlock; split <;> simp
@[simp] theorem State.enterTrap_fileOf (s : State) (cid : Nat) (t : Trap) (c : Nat) (hne : c ≠ cid) :
    (s.enterTrap cid t).fileOf c = s.fileOf c := by
  unfold State.enterTrap; dsimp only; (repeat' split) <;> simp [State.fileOf_setCtx_ne, hne]
@[simp] theorem State.takeTrap_fileOf (s : State) (cid : Nat) (t : Trap) (c : Nat) (hne : c ≠ cid) :
    (s.takeTrap cid t).fileOf c = s.fileOf c := by
  unfold State.takeTrap; dsimp only; (repeat' split) <;> simp [State.fileOf_updCtx_ne, hne]
@[simp] theorem State.leaveTrap_fileOf (s : State) (cid : Nat) (c : Nat) (hne : c ≠ cid) :
    (s.leaveTrap cid).fileOf c = s.fileOf c := by
  simp [State.leaveTrap, State.fileOf_updCtx_ne, hne]
@[simp] theorem State.popTake_fileOf (s : State) (cid : Nat) (c : Nat) :
    (s.popTake cid).fileOf c = s.fileOf c := by
  unfold State.popTake; split <;> simp (disch := first | exact fun _ => rfl | exact fun _ _ => rfl | exact fun _ _ => Ctx.settled_file _ _ _ _ _ | assumption | (intros; split <;> rfl) | (intros; simp; done)) [State.fileOf_updCtx_same]
@[simp] theorem State.pushCells_fileOf (s : State) (cid : Nat) (cells : Tbl Cell) (c : Nat) :
    (s.pushCells cid cells).fileOf c = s.fileOf c := by
  unfold State.pushCells; split <;> simp (disch := first | exact fun _ => rfl | exact fun _ _ => rfl | exact fun _ _ => Ctx.settled_file _ _ _ _ _ | assumption | (intros; split <;> rfl) | (intros; simp; done)) [State.fileOf_updCtx_same]
@[simp] theorem State.pushLanes_fileOf (s : State) (cid : Nat) (val : Lanes) (mask : Word32) (c : Nat) :
    (s.pushLanes cid val mask).fileOf c = s.fileOf c := by
  simp [State.pushLanes]
@[simp] theorem State.vectorResult_fileOf (s : State) (cid : Nat) (f : Fields) (lat : Nat) (val : Lanes) (mask : Word32) (flags : BitVec 5) (buckets : Nat) (extra : List RegWrite) (queued : Bool) (canFlag : Bool) (c : Nat) :
    (s.vectorResult cid f lat val mask flags buckets extra queued canFlag).fileOf c = s.fileOf c := by
  unfold State.vectorResult; split <;> simp
@[simp] theorem State.noted_fileOf (s : State) (v : Nat) (c : Nat) :
    (s.noted v).fileOf c = s.fileOf c := by
  rfl
@[simp] theorem State.beginIssue_fileOf (s : State) (cid : Nat) (c : Nat) :
    (s.beginIssue cid).fileOf c = s.fileOf c := by
  unfold State.beginIssue; dsimp only
  rw [foldl_fileOf _ (fun s a => State.fileOf_updCtx_same _ _ _ _ fun x => by split <;> rfl)]; simp
@[simp] theorem State.chainOn_fileOf (s : State) (cid op : Nat) (chainBit : Bool) (c : Nat) : (s.chainOn cid op chainBit).fileOf c = s.fileOf c := by
  simp [State.chainOn]
@[simp] theorem State.beginChain_fileOf (s : State) (cid op : Nat) (begins chainBit : Bool) (c : Nat) :
    (s.beginChain cid op begins chainBit).fileOf c = s.fileOf c := by
  unfold State.beginChain; split <;> simp
@[simp] theorem State.touch_fileOf (s : State) (ts : List Nat) (c : Nat) : (s.touch ts).fileOf c = s.fileOf c := rfl
@[simp] theorem State.checked_fileOf (s : State) (cid : Nat) (c : Nat) :
    (s.checked cid).fileOf c = s.fileOf c := by
  simp (disch := first | exact fun _ => rfl | exact fun _ _ => rfl | exact fun _ _ => Ctx.settled_file _ _ _ _ _ | assumption | (intros; split <;> rfl) | (intros; simp; done)) [State.checked, State.fileOf_updCtx_same]
@[simp] theorem State.retire_fileOf (s : State) (cid : Nat) (pc : Word64) (price : Nat) (op : Nat) (chainBit : Bool) (c : Nat) (hne : c ≠ cid) :
    (s.retire cid pc price op chainBit).fileOf c = s.fileOf c := by
  unfold State.retire; dsimp only; split <;> simp [State.fileOf_updCtx_ne, hne]
@[simp] theorem State.want_fileOf (s : State) (cid : Nat) (price : Nat) (baton : Bool) (c : Nat) :
    (s.want cid price baton).fileOf c = s.fileOf c := by
  simp (disch := first | exact fun _ => rfl | exact fun _ _ => rfl | exact fun _ _ => Ctx.settled_file _ _ _ _ _ | assumption | (intros; split <;> rfl) | (intros; simp; done)) [State.want, State.fileOf_updCtx_same]
@[simp] theorem State.endChainAt_fileOf (s : State) (cid : Nat) (st : Stage) (c : Nat) :
    (s.endChainAt cid st).fileOf c = s.fileOf c := by
  unfold State.endChainAt; split <;> simp
@[simp] theorem State.waitAt_fileOf (s : State) (cid : Nat) (i : Instr) (st : Stage) (took : Bool) (c : Nat) :
    (s.waitAt cid i st took).fileOf c = s.fileOf c := by
  unfold State.waitAt; split <;> simp (disch := first | exact fun _ => rfl | exact fun _ _ => rfl | exact fun _ _ => Ctx.settled_file _ _ _ _ _ | assumption | (intros; split <;> rfl) | (intros; simp; done)) [State.fileOf_updCtx_same]
@[simp] theorem State.joinAt_fileOf (s : State) (cid : Nat) (ns : List Nat) (c : Nat) :
    (s.joinAt cid ns).fileOf c = s.fileOf c := by
  simp (disch := first | exact fun _ => rfl | exact fun _ _ => rfl | exact fun _ _ => Ctx.settled_file _ _ _ _ _ | assumption | (intros; split <;> rfl) | (intros; simp; done)) [State.joinAt, State.fileOf_updCtx_same]
@[simp] theorem State.trapAt_fileOf (s : State) (cid : Nat) (t : Trap) (c : Nat) (hne : c ≠ cid) :
    (s.trapAt cid t).fileOf c = s.fileOf c := by
  simp [State.trapAt, hne]
@[simp] theorem State.writeS_fileOf (s : State) (cid : Nat) (f : Fields) (val : Word64) (c : Nat) (hne : c ≠ cid) :
    (s.writeS cid f val).fileOf c = s.fileOf c := by
  unfold State.writeS; split
  · split
    · rfl
    · exact State.fileOf_updCtx_ne _ _ hne
  · rfl
@[simp] theorem State.launchS_fileOf (s : State) (cid : Nat) (f : Fields) (lat : Nat) (val : Word64) (c : Nat) :
    (s.launchS cid f lat val).fileOf c = s.fileOf c := by
  unfold State.launchS; split <;> simp
@[simp] theorem State.writeM_fileOf (s : State) (cid : Nat) (f : Fields) (val : Word32) (c : Nat) (hne : c ≠ cid) :
    (s.writeM cid f val).fileOf c = s.fileOf c := by
  unfold State.writeM; split
  · split
    · rfl
    · exact State.fileOf_updCtx_ne _ _ hne
  · rfl
@[simp] theorem scalarBody_fileOf (op : Nat) (cid : Nat) (f : Fields) (s : State) (c : Nat) (hne : c ≠ cid) :
    ((scalarBody op cid f s).state s).fileOf c = s.fileOf c := by
  unfold scalarBody; dsimp only; (repeat' split) <;> simp [hne]
@[simp] theorem maskBody_fileOf (op : Nat) (cid : Nat) (f : Fields) (s : State) (c : Nat) (hne : c ≠ cid) :
    ((maskBody op cid f s).state s).fileOf c = s.fileOf c := by
  simp [maskBody, hne]
@[simp] theorem maskGetBody_fileOf (op : Nat) (cid : Nat) (f : Fields) (s : State) (c : Nat) (hne : c ≠ cid) :
    ((maskGetBody op cid f s).state s).fileOf c = s.fileOf c := by
  simp [maskGetBody, hne]
@[simp] theorem State.redirect_fileOf (s : State) (cid : Nat) (len : Nat) (pc : Word64) (target : Word64) (c : Nat) :
    (s.redirect cid len pc target).fileOf c = s.fileOf c := by
  unfold State.redirect; dsimp only; (repeat' split) <;> simp (disch := first | exact fun _ => rfl | exact fun _ _ => rfl | exact fun _ _ => Ctx.settled_file _ _ _ _ _ | assumption | (intros; split <;> rfl) | (intros; simp; done)) [State.fileOf_updCtx_same]
@[simp] theorem State.branchTo_fileOf (s : State) (cid : Nat) (len : Nat) (pc : Word64) (target : Word64) (wraps : Bool) (c : Nat) :
    (s.branchTo cid len pc target wraps).fileOf c = s.fileOf c := by
  unfold State.branchTo; dsimp only; (repeat' split) <;> simp (disch := first | exact fun _ => rfl | exact fun _ _ => rfl | exact fun _ _ => Ctx.settled_file _ _ _ _ _ | assumption | (intros; split <;> rfl) | (intros; simp; done)) [State.fileOf_updCtx_same]
@[simp] theorem branchBody_fileOf (op : Nat) (len : Nat) (cid : Nat) (f : Fields) (s : State) (c : Nat) (hne : c ≠ cid) :
    ((branchBody op len cid f s).state s).fileOf c = s.fileOf c := by
  unfold branchBody; dsimp only; (repeat' split) <;> simp [State.fileOf_updCtx_ne, hne]
@[simp] theorem jumpBody_fileOf (op : Nat) (cid : Nat) (f : Fields) (s : State) (c : Nat) (hne : c ≠ cid) :
    ((jumpBody op cid f s).state s).fileOf c = s.fileOf c := by
  unfold jumpBody; dsimp only; (repeat' split) <;> simp [State.fileOf_updCtx_ne, hne]
@[simp] theorem State.popFor_fileOf (s : State) (cid : Nat) (op : Nat) (f : Fields) (c : Nat) :
    (s.popFor cid op f).fileOf c = s.fileOf c := by
  unfold State.popFor; split <;> simp
@[simp] theorem vecDone_fileOf (s : State) (cid : Nat) (op : Nat) (f : Fields) (lat : Nat) (val : Lanes) (mask : Word32) (flags : Flags) (canFlag : Bool) (c : Nat) :
    ((vecDone s cid op f lat val mask flags canFlag).state s).fileOf c = s.fileOf c := by
  simp [vecDone]
@[simp] theorem elemBody_fileOf (op : Nat) (cid : Nat) (f : Fields) (s : State) (c : Nat) :
    ((elemBody op cid f s).state s).fileOf c = s.fileOf c := by
  simp [elemBody]
@[simp] theorem vdot2Body_fileOf (op : Nat) (cid : Nat) (f : Fields) (s : State) (c : Nat) :
    ((vdot2Body op cid f s).state s).fileOf c = s.fileOf c := by
  simp [vdot2Body]
@[simp] theorem vredBody_fileOf (op : Nat) (cid : Nat) (f : Fields) (s : State) (c : Nat) :
    ((vredBody op cid f s).state s).fileOf c = s.fileOf c := by
  simp [vredBody]
@[simp] theorem vcmpBody_fileOf (op : Nat) (cid : Nat) (f : Fields) (s : State) (c : Nat) :
    ((vcmpBody op cid f s).state s).fileOf c = s.fileOf c := by
  unfold vcmpBody; split <;> simp
@[simp] theorem vselBody_fileOf (op : Nat) (cid : Nat) (f : Fields) (s : State) (c : Nat) :
    ((vselBody op cid f s).state s).fileOf c = s.fileOf c := by
  simp [vselBody]
@[simp] theorem vmovBody_fileOf (op : Nat) (cid : Nat) (f : Fields) (s : State) (c : Nat) :
    ((vmovBody op cid f s).state s).fileOf c = s.fileOf c := by
  simp [vmovBody]
@[simp] theorem vbcastBody_fileOf (op : Nat) (cid : Nat) (f : Fields) (s : State) (c : Nat) :
    ((vbcastBody op cid f s).state s).fileOf c = s.fileOf c := by
  simp [vbcastBody]
@[simp] theorem vextBody_fileOf (op : Nat) (cid : Nat) (f : Fields) (s : State) (c : Nat) :
    ((vextBody op cid f s).state s).fileOf c = s.fileOf c := by
  simp [vextBody]
@[simp] theorem vpermBody_fileOf (op : Nat) (cid : Nat) (f : Fields) (s : State) (c : Nat) :
    ((vpermBody op cid f s).state s).fileOf c = s.fileOf c := by
  simp [vpermBody]
@[simp] theorem vrotBody_fileOf (op : Nat) (cid : Nat) (f : Fields) (s : State) (c : Nat) :
    ((vrotBody op cid f s).state s).fileOf c = s.fileOf c := by
  simp [vrotBody]
@[simp] theorem vcompressBody_fileOf (op : Nat) (cid : Nat) (f : Fields) (s : State) (c : Nat) :
    ((vcompressBody op cid f s).state s).fileOf c = s.fileOf c := by
  simp [vcompressBody]
@[simp] theorem vexpandBody_fileOf (op : Nat) (cid : Nat) (f : Fields) (s : State) (c : Nat) :
    ((vexpandBody op cid f s).state s).fileOf c = s.fileOf c := by
  simp [vexpandBody]
@[simp] theorem vscanBody_fileOf (op : Nat) (cid : Nat) (f : Fields) (s : State) (c : Nat) :
    ((vscanBody op cid f s).state s).fileOf c = s.fileOf c := by
  simp [vscanBody]
@[simp] theorem vcvtBody_fileOf (op : Nat) (cid : Nat) (f : Fields) (s : State) (c : Nat) :
    ((vcvtBody op cid f s).state s).fileOf c = s.fileOf c := by
  simp [vcvtBody]
@[simp] theorem vpackBody_fileOf (op : Nat) (cid : Nat) (f : Fields) (s : State) (c : Nat) :
    ((vpackBody op cid f s).state s).fileOf c = s.fileOf c := by
  simp [vpackBody]
@[simp] theorem vunpackBody_fileOf (op : Nat) (cid : Nat) (f : Fields) (s : State) (c : Nat) :
    ((vunpackBody op cid f s).state s).fileOf c = s.fileOf c := by
  simp [vunpackBody]
@[simp] theorem vcvtoBody_fileOf (op : Nat) (cid : Nat) (f : Fields) (s : State) (c : Nat) (_hne : c ≠ cid) :
    ((vcvtoBody op cid f s).state s).fileOf c = s.fileOf c := by
  unfold vcvtoBody; dsimp only; (repeat' split) <;> simp
@[simp] theorem sfuBody_fileOf (op : Nat) (cid : Nat) (f : Fields) (s : State) (c : Nat) :
    ((sfuBody op cid f s).state s).fileOf c = s.fileOf c := by
  simp [sfuBody]
@[simp] theorem State.markLoad_fileOf (s : State) (cid : Nat) (n : Nat) (ps read : List Place) (c : Nat) :
    (s.markLoad cid n ps read).fileOf c = s.fileOf c := by
  unfold State.markLoad; split
  · rfl
  · exact State.fileOf_updCtx_same _ _ _ _ fun _ => rfl
@[simp] theorem loadAll_fileOf (s : State) (g n : Nat) (ps : List Place) (c : Nat) :
    (loadAll s g n ps).1.fileOf c = s.fileOf c := by
  induction ps generalizing s with
  | nil => rfl
  | cons p ps ih => simp [loadAll, ih]
@[simp] theorem trapRes_fileOf (s : State) (e : Nat × Word32 × Word64) (c : Nat) :
    ((trapRes e).state s).fileOf c = s.fileOf c := by
  rfl
@[simp] theorem State.poisonLast_fileOf (s : State) (cid : Nat) (bad : Bool) (addr : Word64) (c : Nat) :
    (s.poisonLast cid bad addr).fileOf c = s.fileOf c := by
  unfold State.poisonLast; split <;> simp (disch := first | exact fun _ => rfl | exact fun _ _ => rfl | exact fun _ _ => Ctx.settled_file _ _ _ _ _ | assumption | (intros; split <;> rfl) | (intros; simp; done)) [State.fileOf_updCtx_same]
@[simp] theorem vectorLoad_fileOf (s : State) (cid : Nat) (f : Fields) (mask : Word32) (n : Nat) (ps : List Place) (c : Nat) :
    ((vectorLoad s cid f mask n ps).state s).fileOf c = s.fileOf c := by
  unfold vectorLoad; split <;> simp
@[simp] theorem ldBody_fileOf (cid : Nat) (f : Fields) (s : State) (c : Nat) :
    ((ldBody cid f s).state s).fileOf c = s.fileOf c := by
  unfold ldBody; dsimp only; (repeat' split) <;> simp (disch := first | exact fun _ => rfl | exact fun _ _ => rfl | exact fun _ _ => Ctx.settled_file _ _ _ _ _ | assumption | (intros; split <;> rfl) | (intros; simp; done))
@[simp] theorem ldbBody_fileOf (cid : Nat) (f : Fields) (s : State) (c : Nat) :
    ((ldbBody cid f s).state s).fileOf c = s.fileOf c := by
  unfold ldbBody; dsimp only; (repeat' split) <;> simp (disch := first | exact fun _ => rfl | exact fun _ _ => rfl | exact fun _ _ => Ctx.settled_file _ _ _ _ _ | assumption | (intros; split <;> rfl) | (intros; simp; done))
@[simp] theorem stBody_fileOf (op : Nat) (cid : Nat) (f : Fields) (s : State) (c : Nat) :
    ((stBody op cid f s).state s).fileOf c = s.fileOf c := by
  unfold stBody; dsimp only; (repeat' split) <;> simp (disch := first | exact fun _ => rfl | exact fun _ _ => rfl | exact fun _ _ => Ctx.settled_file _ _ _ _ _ | assumption | (intros; split <;> rfl) | (intros; simp; done))
@[simp] theorem sldBody_fileOf (cid : Nat) (f : Fields) (s : State) (c : Nat) :
    ((sldBody cid f s).state s).fileOf c = s.fileOf c := by
  unfold sldBody; dsimp only; (repeat' split) <;> simp (disch := first | exact fun _ => rfl | exact fun _ _ => rfl | exact fun _ _ => Ctx.settled_file _ _ _ _ _ | assumption | (intros; split <;> rfl) | (intros; simp; done))
@[simp] theorem sstBody_fileOf (cid : Nat) (f : Fields) (s : State) (c : Nat) :
    ((sstBody cid f s).state s).fileOf c = s.fileOf c := by
  unfold sstBody; dsimp only; (repeat' split) <;> simp (disch := first | exact fun _ => rfl | exact fun _ _ => rfl | exact fun _ _ => Ctx.settled_file _ _ _ _ _ | assumption | (intros; split <;> rfl) | (intros; simp; done))
@[simp] theorem State.setSsp_fileOf (s : State) (cid : Nat) (v : Word64) (c : Nat) (hne : c ≠ cid) :
    (s.setSsp cid v).fileOf c = s.fileOf c := by
  simp [State.setSsp, State.fileOf_updCtx_ne, hne]
@[simp] theorem pushBody_fileOf (cid : Nat) (f : Fields) (s : State) (c : Nat) (hne : c ≠ cid) :
    ((pushBody cid f s).state s).fileOf c = s.fileOf c := by
  unfold pushBody; dsimp only; (repeat' split) <;> simp [hne]
@[simp] theorem popBody_fileOf (cid : Nat) (f : Fields) (s : State) (c : Nat) (hne : c ≠ cid) :
    ((popBody cid f s).state s).fileOf c = s.fileOf c := by
  unfold popBody; dsimp only; (repeat' split) <;> simp [hne]
@[simp] theorem vspillBody_fileOf (cid : Nat) (f : Fields) (s : State) (c : Nat) (hne : c ≠ cid) :
    ((vspillBody cid f s).state s).fileOf c = s.fileOf c := by
  unfold vspillBody; dsimp only; (repeat' split) <;> simp [hne]
@[simp] theorem vfillBody_fileOf (cid : Nat) (f : Fields) (s : State) (c : Nat) (hne : c ≠ cid) :
    ((vfillBody cid f s).state s).fileOf c = s.fileOf c := by
  unfold vfillBody; dsimp only; (repeat' split) <;> simp [hne]
@[simp] theorem fenceBody_fileOf (cid : Nat) (f : Fields) (s : State) (c : Nat) :
    ((fenceBody cid f s).state s).fileOf c = s.fileOf c := by
  unfold fenceBody; dsimp only; (repeat' split) <;> simp (disch := first | exact fun _ => rfl | exact fun _ _ => rfl | exact fun _ _ => Ctx.settled_file _ _ _ _ _ | assumption | (intros; split <;> rfl) | (intros; simp; done)) [State.fileOf_updCtx_same]
@[simp] theorem State.atomOrder_fileOf (s : State) (cid : Nat) (d : Nat) (f : Fields) (c : Nat) :
    (s.atomOrder cid d f).fileOf c = s.fileOf c := by
  simp (disch := first | exact fun _ => rfl | exact fun _ _ => rfl | exact fun _ _ => Ctx.settled_file _ _ _ _ _ | assumption | (intros; split <;> rfl) | (intros; simp; done)) [State.atomOrder, State.fileOf_updCtx_same]
@[simp] theorem atomAll_fileOf (s : State) (g : Nat) (op : AtomOp) (t : Ty) (data expect : Nat → Nat) (ps : List Place) (c : Nat) :
    (atomAll s g op t data expect ps).1.fileOf c = s.fileOf c := by
  induction ps generalizing s with
  | nil => rfl
  | cons p ps ih => unfold atomAll; dsimp only; rw [ih]; split <;> simp
@[simp] theorem atomBody_fileOf (op : Nat) (cid : Nat) (f : Fields) (s : State) (c : Nat) :
    ((atomBody op cid f s).state s).fileOf c = s.fileOf c := by
  unfold atomBody; dsimp only; (repeat' split) <;> simp
@[simp] theorem satomBody_fileOf (op : Nat) (cid : Nat) (f : Fields) (s : State) (c : Nat) :
    ((satomBody op cid f s).state s).fileOf c = s.fileOf c := by
  unfold satomBody; dsimp only; (repeat' split) <;> simp
@[simp] theorem State.completeBarrier_fileOf (s : State) (blk : Nat) (band : Option Nat) (k : Nat) (c : Nat) :
    (s.completeBarrier blk band k).fileOf c = s.fileOf c := by
  unfold State.completeBarrier; dsimp only; (repeat' split) <;> simp (disch := first | exact fun _ => rfl | exact fun _ _ => rfl | exact fun _ _ => Ctx.settled_file _ _ _ _ _ | assumption | (intros; split <;> rfl) | (intros; simp; done))
@[simp] theorem State.leaveBarriers_fileOf (s : State) (blk : Nat) (band : Nat) (c : Nat) :
    (s.leaveBarriers blk band).fileOf c = s.fileOf c := by
  simp (disch := first | exact fun _ => rfl | exact fun _ _ => rfl | exact fun _ _ => Ctx.settled_file _ _ _ _ _ | assumption | (intros; split <;> rfl) | (intros; simp; done)) [State.leaveBarriers, foldl_fileOf]
@[simp] theorem State.withdrawWatch_fileOf (s : State) (cid : Nat) (c : Nat) :
    (s.withdrawWatch cid).fileOf c = s.fileOf c := by
  unfold State.withdrawWatch; dsimp only; (repeat' split) <;> simp (disch := first | exact fun _ => rfl | exact fun _ _ => rfl | exact fun _ _ => Ctx.settled_file _ _ _ _ _ | assumption | (intros; split <;> rfl) | (intros; simp; done)) [State.fileOf_updCtx_same, foldl_fileOf]
@[simp] theorem nopBody_fileOf (_cid : Nat) (_f : Fields) (s : State) (c : Nat) :
    ((nopBody _cid _f s).state s).fileOf c = s.fileOf c := by
  rfl
@[simp] theorem State.leaveBaton_fileOf (s : State) (cid c : Nat) : (s.leaveBaton cid).fileOf c = s.fileOf c := by
  unfold State.leaveBaton; split <;> simp
@[simp] theorem State.markDone_fileOf (s : State) (cid c : Nat) : (s.markDone cid).fileOf c = s.fileOf c := by
  simp (disch := first | exact fun _ => rfl | exact fun _ _ => rfl | exact fun _ _ => Ctx.settled_file _ _ _ _ _ | assumption | (intros; split <;> rfl) | (intros; simp; done)) [State.markDone, State.fileOf_updCtx_same]
@[simp] theorem State.leaveRow_fileOf (s : State) (cid c : Nat) : (s.leaveRow cid).fileOf c = s.fileOf c := by
  unfold State.leaveRow; (repeat' split) <;> simp
@[simp] theorem doneBody_fileOf (cid : Nat) (_f : Fields) (s : State) (c : Nat) :
    ((doneBody cid _f s).state s).fileOf c = s.fileOf c := by
  unfold doneBody; dsimp only; (repeat' split) <;> simp (disch := first | exact fun _ => rfl | exact fun _ _ => rfl | exact fun _ _ => Ctx.settled_file _ _ _ _ _ | assumption | (intros; split <;> rfl) | (intros; simp; done)) [State.fileOf_updCtx_same]
@[simp] theorem trapBody_fileOf (cid : Nat) (f : Fields) (s : State) (c : Nat) :
    ((trapBody cid f s).state s).fileOf c = s.fileOf c := by
  rfl
@[simp] theorem brkBody_fileOf (_cid : Nat) (f : Fields) (_s : State) (c : Nat) :
    ((brkBody _cid f _s).state _s).fileOf c = _s.fileOf c := by
  rfl
@[simp] theorem tretBody_fileOf (cid : Nat) (_f : Fields) (s : State) (c : Nat) (hne : c ≠ cid) :
    ((tretBody cid _f s).state s).fileOf c = s.fileOf c := by
  simp [tretBody, hne]
@[simp] theorem sgetBody_fileOf (cid : Nat) (f : Fields) (s : State) (c : Nat) (hne : c ≠ cid) :
    ((sgetBody cid f s).state s).fileOf c = s.fileOf c := by
  unfold sgetBody; dsimp only; (repeat' split) <;> simp [State.fileOf_updCtx_ne, hne]
@[simp] theorem ssetBody_fileOf (cid : Nat) (f : Fields) (s : State) (c : Nat) (hne : c ≠ cid) :
    ((ssetBody cid f s).state s).fileOf c = s.fileOf c := by
  simp [ssetBody, State.fileOf_updCtx_ne, hne]
@[simp] theorem yieldBody_fileOf (cid : Nat) (_f : Fields) (s : State) (c : Nat) :
    ((yieldBody cid _f s).state s).fileOf c = s.fileOf c := by
  simp (disch := first | exact fun _ => rfl | exact fun _ _ => rfl | exact fun _ _ => Ctx.settled_file _ _ _ _ _ | assumption | (intros; split <;> rfl) | (intros; simp; done)) [yieldBody, State.fileOf_updCtx_same]
@[simp] theorem perfBody_fileOf (cid : Nat) (f : Fields) (s : State) (c : Nat) (hne : c ≠ cid) :
    ((perfBody cid f s).state s).fileOf c = s.fileOf c := by
  unfold perfBody; dsimp only; (repeat' split) <;> simp [State.fileOf_updCtx_ne, hne]
@[simp] theorem icinvBody_fileOf (cid : Nat) (_f : Fields) (s : State) (c : Nat) :
    ((icinvBody cid _f s).state s).fileOf c = s.fileOf c := by
  simp (disch := first | exact fun _ => rfl | exact fun _ _ => rfl | exact fun _ _ => Ctx.settled_file _ _ _ _ _ | assumption | (intros; split <;> rfl) | (intros; simp; done)) [icinvBody, State.fileOf_updCtx_same]
@[simp] theorem mpointBody_fileOf (cid : Nat) (f : Fields) (s : State) (c : Nat) (hne : c ≠ cid) :
    ((mpointBody cid f s).state s).fileOf c = s.fileOf c := by
  unfold mpointBody; (repeat' split) <;> simp [hne]
@[simp] theorem State.startWalk_fileOf (s : State) (c : Nat) (fn : Nat) (va : Nat) (c_ : Nat) :
    (s.startWalk c fn va).fileOf c_ = s.fileOf c_ := by
  unfold State.startWalk; dsimp only; (repeat' split) <;> simp (disch := first | exact fun _ => rfl | exact fun _ _ => rfl | exact fun _ _ => Ctx.settled_file _ _ _ _ _ | assumption | (intros; split <;> rfl) | (intros; simp; done))
@[simp] theorem State.takeWalks_fileOf (s : State) (d n : Nat) (c : Nat) :
    (s.takeWalks d n).fileOf c = s.fileOf c := by
  induction n generalizing s with
  | zero => rfl
  | succ n ih => unfold State.takeWalks; dsimp only; (repeat' split) <;> simp [ih]
@[simp] theorem State.forgetFails_fileOf (s : State) (fn : Nat) (c : Nat) :
    (s.forgetFails fn).fileOf c = s.fileOf c := by
  rfl
@[simp] theorem State.acquireRow_fileOf (s : State) (cid : Nat) (c : Nat) :
    (s.acquireRow cid).fileOf c = s.fileOf c := by
  unfold State.acquireRow; split <;> simp (disch := first | exact fun _ => rfl | exact fun _ _ => rfl | exact fun _ _ => Ctx.settled_file _ _ _ _ _ | assumption | (intros; split <;> rfl) | (intros; simp; done)) [State.fileOf_updCtx_same]
@[simp] theorem fnewBody_fileOf (cid : Nat) (f : Fields) (s : State) (c : Nat) (hne : c ≠ cid) :
    ((fnewBody cid f s).state s).fileOf c = s.fileOf c := by
  unfold fnewBody; dsimp only; split
  · rename_i hr; simpa [hne] using State.allocFuture_fileOf _ _ _ _ _ _ hr c
  · simp [hne]
@[simp] theorem fsetBody_fileOf (cid : Nat) (f : Fields) (s : State) (c : Nat) (hne : c ≠ cid) :
    ((fsetBody cid f s).state s).fileOf c = s.fileOf c := by
  unfold fsetBody; dsimp only; (repeat' split) <;> simp [hne]
@[simp] theorem fgetBody_fileOf (cid : Nat) (f : Fields) (s : State) (c : Nat) (hne : c ≠ cid) :
    ((fgetBody cid f s).state s).fileOf c = s.fileOf c := by
  unfold fgetBody; dsimp only; (repeat' split) <;> simp [State.fileOf_updCtx_ne, hne]
@[simp] theorem fwaitBody_fileOf (cid : Nat) (f : Fields) (s : State) (c : Nat) (hne : c ≠ cid) :
    ((fwaitBody cid f s).state s).fileOf c = s.fileOf c := by
  unfold fwaitBody; dsimp only; (repeat' split) <;> simp [hne]
@[simp] theorem ftestBody_fileOf (cid : Nat) (f : Fields) (s : State) (c : Nat) (hne : c ≠ cid) :
    ((ftestBody cid f s).state s).fileOf c = s.fileOf c := by
  unfold ftestBody; dsimp only; (repeat' split) <;> simp [hne]
@[simp] theorem fmovBody_fileOf (cid : Nat) (f : Fields) (s : State) (c : Nat) (hne : c ≠ cid) :
    ((fmovBody cid f s).state s).fileOf c = s.fileOf c := by
  simp [fmovBody, hne]
@[simp] theorem fcancelBody_fileOf (cid : Nat) (f : Fields) (s : State) (c : Nat) (hne : c ≠ cid) :
    ((fcancelBody cid f s).state s).fileOf c = s.fileOf c := by
  unfold fcancelBody; dsimp only; (repeat' split) <;> simp [hne]
theorem State.arriveAt_fileOf (s : State) (cid : Nat) (band : Option Nat) (k : Nat) (r : State × Word32) (hr : (s.arriveAt cid band k) = some r) (c : Nat) :
    r.1.fileOf c = s.fileOf c := by
  unfold State.arriveAt at hr; dsimp only at hr; split at hr
  · cases hr
  · split at hr
    · cases hr
    · cases hr; simp
@[simp] theorem awaitAt_fileOf (s : State) (cid : Nat) (band : Option Nat) (k : Nat) (tok : Word32) (st : Stage) (c : Nat) :
    ((awaitAt s cid band k tok st).state s).fileOf c = s.fileOf c := by
  unfold awaitAt; split <;> simp
@[simp] theorem arriveBody_fileOf (cid : Nat) (f : Fields) (s : State) (c : Nat) (hne : c ≠ cid) :
    ((arriveBody cid f s).state s).fileOf c = s.fileOf c := by
  unfold arriveBody; split
  · rename_i hr; simpa [hne] using State.arriveAt_fileOf _ _ _ _ _ hr c
  · simp
@[simp] theorem awaitBody_fileOf (cid : Nat) (f : Fields) (s : State) (c : Nat) :
    ((awaitBody cid f s).state s).fileOf c = s.fileOf c := by
  simp [awaitBody]
@[simp] theorem barBody_fileOf (cid : Nat) (f : Fields) (s : State) (c : Nat) :
    ((barBody cid f s).state s).fileOf c = s.fileOf c := by
  unfold barBody; dsimp only; split
  · simp
  · split
    · rename_i hr; have := State.arriveAt_fileOf _ _ _ _ _ hr c
      unfold awaitAt; (repeat' split) <;> simpa using this
    · simp
@[simp] theorem State.deliverWake_fileOf (s : State) (cid : Nat) (serial : Nat) (reason : Nat) (c : Nat) :
    (s.deliverWake cid serial reason).fileOf c = s.fileOf c := by
  unfold State.deliverWake; split
  · rfl
  · rename_i hx; split
    · split
      · exact State.fileOf_setCtx_same _ _ hx rfl
      · rfl
    · rfl
@[simp] theorem State.armWatch_fileOf (s : State) (cid : Nat) (sp : Option Space) (line : Nat) (addr : Word64) (c : Nat) :
    (s.armWatch cid sp line addr).fileOf c = s.fileOf c := by
  unfold State.armWatch; dsimp only; (repeat' split) <;> simp (disch := first | exact fun _ => rfl | exact fun _ _ => rfl | exact fun _ _ => Ctx.settled_file _ _ _ _ _ | assumption | (intros; split <;> rfl) | (intros; simp; done)) [State.fileOf_updCtx_same]
@[simp] theorem State.rewatch_fileOf (s : State) (cid : Nat) (sp : Option Space) (line : Nat) (addr : Word64) (c : Nat) :
    (s.rewatch cid sp line addr).fileOf c = s.fileOf c := by
  simp (disch := first | exact fun _ => rfl | exact fun _ _ => rfl | exact fun _ _ => Ctx.settled_file _ _ _ _ _ | assumption | (intros; split <;> rfl) | (intros; simp; done)) [State.rewatch, State.fileOf_updCtx_same]
@[simp] theorem monArm_fileOf (s : State) (cid : Nat) (sp : Option Space) (line : Nat) (delay : Nat) (c : Nat) :
    ((monArm s cid sp line delay).state s).fileOf c = s.fileOf c := by
  simp (disch := first | exact fun _ => rfl | exact fun _ _ => rfl | exact fun _ _ => Ctx.settled_file _ _ _ _ _ | assumption | (intros; split <;> rfl) | (intros; simp; done)) [monArm, State.fileOf_updCtx_same]
@[simp] theorem monAsk_fileOf (cid : Nat) (f : Fields) (until_ : Nat) (s : State) (c : Nat) :
    ((monAsk cid f until_ s).state s).fileOf c = s.fileOf c := by
  unfold monAsk; dsimp only; (repeat' split) <;> simp (disch := first | exact fun _ => rfl | exact fun _ _ => rfl | exact fun _ _ => Ctx.settled_file _ _ _ _ _ | assumption | (intros; split <;> rfl) | (intros; simp; done))
@[simp] theorem monHome_fileOf (cid : Nat) (f : Fields) (sp : Option Space) (line : Nat) (s : State) (c : Nat) :
    ((monHome cid f sp line s).state s).fileOf c = s.fileOf c := by
  unfold monHome; dsimp only; (repeat' split) <;> simp
@[simp] theorem monBody_fileOf (cid : Nat) (f : Fields) (s : State) (c : Nat) :
    ((monBody cid f s).state s).fileOf c = s.fileOf c := by
  unfold monBody; (repeat' split) <;> simp
@[simp] theorem mwaitReturn_fileOf (s : State) (cid : Nat) (f : Fields) (r : Nat) (c : Nat) (hne : c ≠ cid) :
    ((mwaitReturn s cid f r).state s).fileOf c = s.fileOf c := by
  simp [mwaitReturn, State.fileOf_updCtx_ne, hne]
@[simp] theorem mwaitBody_fileOf (cid : Nat) (f : Fields) (s : State) (c : Nat) (hne : c ≠ cid) :
    ((mwaitBody cid f s).state s).fileOf c = s.fileOf c := by
  unfold mwaitBody; dsimp only; (repeat' split) <;> simp [hne]
@[simp] theorem State.answerRow_fileOf (s : State) (cid : Nat) (v : Word64) (c : Nat) :
    (s.answerRow cid v).fileOf c = s.fileOf c := by
  simp (disch := first | exact fun _ => rfl | exact fun _ _ => rfl | exact fun _ _ => Ctx.settled_file _ _ _ _ _ | assumption | (intros; split <;> rfl) | (intros; simp; done)) [State.answerRow, State.fileOf_updCtx_same]
@[simp] theorem serveTakers_fileOf (s : State) (blk : Nat) (l : List Nat) (c : Nat) :
    (serveTakers s blk l).fileOf c = s.fileOf c := by
  induction l generalizing s with
  | nil => rfl
  | cons t ts ih => unfold serveTakers; (repeat' split) <;> simp [ih]
@[simp] theorem State.giveRange_fileOf (s : State) (thief : Nat) (lo : Nat) (hi : Nat) (c : Nat) :
    (s.giveRange thief lo hi).fileOf c = s.fileOf c := by
  unfold State.giveRange; split <;> simp
@[simp] theorem State.askNext_fileOf (s : State) (thief : Nat) (done : List Nat) (n past : Nat) (c : Nat) :
    (s.askNext thief done n past).fileOf c = s.fileOf c := by
  induction n generalizing s done past with
  | zero => rfl
  | succ n ih => unfold State.askNext; (repeat' split) <;> simp [ih, foldl_fileOf]
@[simp] theorem State.steal_fileOf (s : State) (thief : Nat) (c : Nat) :
    (s.steal thief).fileOf c = s.fileOf c := by
  simp [State.steal]
@[simp] theorem State.answerThief_fileOf (s : State) (blk : Nat) (thief : Nat) (c : Nat) :
    (s.answerThief blk thief).fileOf c = s.fileOf c := by
  unfold State.answerThief; (repeat' split) <;> simp
@[simp] theorem State.answerThieves_fileOf (s : State) (blk : Nat) (c : Nat) :
    (s.answerThieves blk).fileOf c = s.fileOf c := by
  unfold State.answerThieves; split
  · rfl
  · rw [foldl_fileOf _ (fun s th => by simp)]; simp
@[simp] theorem State.setRange_fileOf (s : State) (blk : Nat) (b : Block) (lo : Nat) (hi : Nat) (c : Nat) :
    (s.setRange blk b lo hi).fileOf c = s.fileOf c := by
  unfold State.setRange; split <;> simp
@[simp] theorem State.serveRange_fileOf (s : State) (blk : Nat) (r : RangeReq) (c : Nat) :
    (s.serveRange blk r).fileOf c = s.fileOf c := by
  unfold State.serveRange; dsimp only; (repeat' split) <;> simp (disch := first | exact fun _ => rfl | exact fun _ _ => rfl | exact fun _ _ => Ctx.settled_file _ _ _ _ _ | assumption | (intros; split <;> rfl) | (intros; simp; done))
@[simp] theorem State.serveRanges_fileOf (s : State) (g : Nat) (c : Nat) :
    (s.serveRanges g).fileOf c = s.fileOf c := by
  unfold State.serveRanges; dsimp only; rw [foldl_fileOf]; intro s e; split
  · exact foldl_fileOf _ (fun s r => by simp) _ _
  · rfl
@[simp] theorem rinitBody_fileOf (cid : Nat) (f : Fields) (s : State) (c : Nat) (hne : c ≠ cid) :
    ((rinitBody cid f s).state s).fileOf c = s.fileOf c := by
  unfold rinitBody rangeBody; dsimp only; (repeat' split) <;> simp [State.fileOf_updCtx_ne, hne]
@[simp] theorem rtakeBody_fileOf (cid : Nat) (f : Fields) (s : State) (c : Nat) (_hne : c ≠ cid) :
    ((rtakeBody cid f s).state s).fileOf c = s.fileOf c := by
  unfold rtakeBody rangeBody; dsimp only; (repeat' split) <;> simp
@[simp] theorem State.setTile_fileOf (s : State) (g : Nat) (n : Nat) (t : Tile) (c : Nat) :
    (s.setTile g n t).fileOf c = s.fileOf c := by
  rfl
@[simp] theorem State.emptySlot_fileOf (s : State) (g : Nat) (n : Nat) (c : Nat) :
    (s.emptySlot g n).fileOf c = s.fileOf c := by
  unfold State.emptySlot; dsimp only; (repeat' split) <;> simp (disch := first | exact fun _ => rfl | exact fun _ _ => rfl | exact fun _ _ => Ctx.settled_file _ _ _ _ _ | assumption | (intros; split <;> rfl) | (intros; simp; done))
@[simp] theorem State.writeHandle_fileOf (s : State) (cid : Nat) (d : Operand) (h : Word32) (c : Nat) (hne : c ≠ cid) :
    (s.writeHandle cid d h).fileOf c = s.fileOf c := by
  unfold State.writeHandle; dsimp only; (repeat' split) <;> simp [State.fileOf_updCtx_ne, hne]
theorem State.engineFuture_fileOf (s : State) (cid : Nat) (r : State × Word32) (hr : (s.engineFuture cid) = some r) (c : Nat) :
    r.1.fileOf c = s.fileOf c := by
  exact State.allocFuture_fileOf _ _ _ _ _ _ hr _
@[simp] theorem mloopBody_fileOf (op : Nat) (cid : Nat) (f : Fields) (s : State) (c : Nat) (hne : c ≠ cid) :
    ((mloopBody op cid f s).state s).fileOf c = s.fileOf c := by
  unfold mloopBody; dsimp only; split
  · simp [State.fileOf_updCtx_ne, hne]
  · split
    · rename_i hr; have := State.engineFuture_fileOf _ _ _ hr c; simpa [State.fileOf_updCtx_ne, hne] using this
    · simp [State.fileOf_updCtx_ne, hne]
@[simp] theorem mstepBody_fileOf (op : Nat) (cid : Nat) (f : Fields) (s : State) (c : Nat) (hne : c ≠ cid) :
    ((mstepBody op cid f s).state s).fileOf c = s.fileOf c := by
  simp [mstepBody, State.fileOf_updCtx_ne, hne]
@[simp] theorem azeroBody_fileOf (cid : Nat) (f : Fields) (s : State) (c : Nat) (hne : c ≠ cid) :
    ((azeroBody cid f s).state s).fileOf c = s.fileOf c := by
  simp [azeroBody, State.fileOf_updCtx_ne, hne]
@[simp] theorem amovBody_fileOf (op : Nat) (cid : Nat) (f : Fields) (s : State) (c : Nat) :
    ((amovBody op cid f s).state s).fileOf c = s.fileOf c := by
  unfold amovBody; dsimp only; (repeat' split) <;> simp (disch := first | exact fun _ => rfl | exact fun _ _ => rfl | exact fun _ _ => Ctx.settled_file _ _ _ _ _ | assumption | (intros; split <;> rfl) | (intros; simp; done)) [foldl_fileOf]
@[simp] theorem astBody_fileOf (op : Nat) (cid : Nat) (f : Fields) (s : State) (c : Nat) :
    ((astBody op cid f s).state s).fileOf c = s.fileOf c := by
  unfold astBody; dsimp only; (repeat' split) <;> simp (disch := first | exact fun _ => rfl | exact fun _ _ => rfl | exact fun _ _ => Ctx.settled_file _ _ _ _ _ | assumption | (intros; split <;> rfl) | (intros; simp; done)) [foldl_fileOf]
@[simp] theorem bpassBody_fileOf (cid : Nat) (f : Fields) (s : State) (c : Nat) :
    ((bpassBody cid f s).state s).fileOf c = s.fileOf c := by
  unfold bpassBody; dsimp only; (repeat' split) <;> simp (disch := first | exact fun _ => rfl | exact fun _ _ => rfl | exact fun _ _ => Ctx.settled_file _ _ _ _ _ | assumption | (intros; split <;> rfl) | (intros; simp; done)) [State.fileOf_updCtx_same]
@[simp] theorem acceptOp_fileOf (op : Nat) (cid : Nat) (f : Fields) (o : LeatOp) (s : State) (c : Nat) (hne : c ≠ cid) :
    ((acceptOp op cid f o s).state s).fileOf c = s.fileOf c := by
  unfold acceptOp; split
  · simp
  · rename_i hr; have := State.engineFuture_fileOf _ _ _ hr c; simpa [hne] using this
@[simp] theorem copyBody_fileOf (op : Nat) (kind : LeatKind) (list : Bool) (cid : Nat) (f : Fields) (s : State) (c : Nat) (hne : c ≠ cid) :
    ((copyBody op kind list cid f s).state s).fileOf c = s.fileOf c := by
  unfold copyBody; dsimp only; (repeat' split) <;> simp [hne]
@[simp] theorem fillBody_fileOf (op : Nat) (list : Bool) (cid : Nat) (f : Fields) (s : State) (c : Nat) (hne : c ≠ cid) :
    ((fillBody op list cid f s).state s).fileOf c = s.fileOf c := by
  unfold fillBody; dsimp only; split
  · simp
  · unfold acceptOp; split
    · simp
    · rename_i hr; have := State.engineFuture_fileOf _ _ _ hr c; simpa [hne] using this
@[simp] theorem cpyBody_fileOf (op : Nat) (cid : Nat) (f : Fields) (s : State) (c : Nat) (hne : c ≠ cid) :
    ((cpyBody op cid f s).state s).fileOf c = s.fileOf c := by
  simp [cpyBody, hne]
@[simp] theorem cpygBody_fileOf (op : Nat) (cid : Nat) (f : Fields) (s : State) (c : Nat) (hne : c ≠ cid) :
    ((cpygBody op cid f s).state s).fileOf c = s.fileOf c := by
  unfold cpygBody; split <;> simp [hne]
@[simp] theorem cpysBody_fileOf (op : Nat) (cid : Nat) (f : Fields) (s : State) (c : Nat) (hne : c ≠ cid) :
    ((cpysBody op cid f s).state s).fileOf c = s.fileOf c := by
  simp [cpysBody, hne]
@[simp] theorem cpytBody_fileOf (op : Nat) (cid : Nat) (f : Fields) (s : State) (c : Nat) (hne : c ≠ cid) :
    ((cpytBody op cid f s).state s).fileOf c = s.fileOf c := by
  simp [cpytBody, hne]
@[simp] theorem cpydBody_fileOf (op : Nat) (cid : Nat) (f : Fields) (s : State) (c : Nat) (hne : c ≠ cid) :
    ((cpydBody op cid f s).state s).fileOf c = s.fileOf c := by
  unfold cpydBody; dsimp only; split
  · simp
  · unfold acceptOp; split
    · simp
    · rename_i hr; have := State.engineFuture_fileOf _ _ _ hr c; simpa [hne] using this
@[simp] theorem gatomBody_fileOf (op : Nat) (cid : Nat) (f : Fields) (s : State) (c : Nat) (hne : c ≠ cid) :
    ((gatomBody op cid f s).state s).fileOf c = s.fileOf c := by
  unfold gatomBody; dsimp only; (repeat' split) <;> simp [hne]
@[simp] theorem tclaimBody_fileOf (cid : Nat) (f : Fields) (s : State) (c : Nat) (hne : c ≠ cid) :
    ((tclaimBody cid f s).state s).fileOf c = s.fileOf c := by
  unfold tclaimBody; dsimp only; (repeat' split) <;> simp [hne]
@[simp] theorem trelBody_fileOf (cid : Nat) (f : Fields) (s : State) (c : Nat) :
    ((trelBody cid f s).state s).fileOf c = s.fileOf c := by
  simp [trelBody]
@[simp] theorem tstatBody_fileOf (cid : Nat) (f : Fields) (s : State) (c : Nat) (hne : c ≠ cid) :
    ((tstatBody cid f s).state s).fileOf c = s.fileOf c := by
  simp [tstatBody, hne]
@[simp] theorem State.updOp_fileOf (s : State) (g : Nat) (id : Nat) (f : LeatOp → LeatOp) (c : Nat) :
    (s.updOp g id f).fileOf c = s.fileOf c := by
  rfl
@[simp] theorem State.opSent_fileOf (s : State) (g : Nat) (o : LeatOp) (c : Nat) :
    (s.opSent g o).fileOf c = s.fileOf c := by
  unfold State.opSent; dsimp only; (repeat' split) <;> simp (disch := first | exact fun _ => rfl | exact fun _ _ => rfl | exact fun _ _ => Ctx.settled_file _ _ _ _ _ | assumption | (intros; split <;> rfl) | (intros; simp; done))
@[simp] theorem State.updBeat_fileOf (s : State) (g : Nat) (op : Nat) (id : Nat) (f : Beat → Beat) (c : Nat) :
    (s.updBeat g op id f).fileOf c = s.fileOf c := by
  rfl
@[simp] theorem State.bankOp_fileOf (s : State) (cid : Nat) (op : Nat) (f : Fields) (m : Word32) (lat : Nat) (c : Nat) :
    (s.bankOp cid op f m lat).fileOf c = s.fileOf c := by
  simp (disch := first | exact fun _ => rfl | exact fun _ _ => rfl | exact fun _ _ => Ctx.settled_file _ _ _ _ _ | assumption | (intros; split <;> rfl) | (intros; simp; done)) [State.bankOp, State.fileOf_updCtx_same]
@[simp] theorem State.takeMasks_fileOf (s : State) (g : Nat) (c : Nat) :
    (s.takeMasks g).fileOf c = s.fileOf c := by
  refine foldl_fileOf _ (fun s e => ?_) _ _; (repeat' split)
  · exact State.fileOf_updCtx_same _ _ _ _ fun _ => rfl
  · rfl
  · rfl
@[simp] theorem State.takeMask_fileOf (s : State) (cid : Nat) (m : Word32) (c : Nat) : (s.takeMask cid m).fileOf c = s.fileOf c := by
  simp (disch := first | exact fun _ => rfl | (intros; split <;> rfl)) [State.takeMask, State.fileOf_updCtx_same, State.fileOf_mapCtxs]
@[simp] theorem bkmodeBody_fileOf (cid : Nat) (f : Fields) (s : State) (c : Nat) :
    ((bkmodeBody cid f s).state s).fileOf c = s.fileOf c := by
  unfold bkmodeBody; dsimp only; (repeat' split) <;> simp (disch := first | exact fun _ => rfl | exact fun _ _ => rfl | exact fun _ _ => Ctx.settled_file _ _ _ _ _ | assumption | (intros; split <;> rfl) | (intros; simp; done))
@[simp] theorem bkbcastBody_fileOf (op : Nat) (cid : Nat) (f : Fields) (s : State) (c : Nat) :
    ((bkbcastBody op cid f s).state s).fileOf c = s.fileOf c := by
  unfold bkbcastBody; dsimp only; split <;> simp
@[simp] theorem bkmacBody_fileOf (op : Nat) (cid : Nat) (f : Fields) (s : State) (c : Nat) :
    ((bkmacBody op cid f s).state s).fileOf c = s.fileOf c := by
  unfold bkmacBody; dsimp only; (repeat' split) <;> simp (disch := first | exact fun _ => rfl | exact fun _ _ => rfl | exact fun _ _ => Ctx.settled_file _ _ _ _ _ | assumption | (intros; split <;> rfl) | (intros; simp; done))
@[simp] theorem bkgetBody_fileOf (op : Nat) (cid : Nat) (f : Fields) (s : State) (c : Nat) :
    ((bkgetBody op cid f s).state s).fileOf c = s.fileOf c := by
  unfold bkgetBody; dsimp only; (repeat' split) <;> simp (disch := first | exact fun _ => rfl | exact fun _ _ => rfl | exact fun _ _ => Ctx.settled_file _ _ _ _ _ | assumption | (intros; split <;> rfl) | (intros; simp; done))
@[simp] theorem bkclrBody_fileOf (op : Nat) (cid : Nat) (f : Fields) (s : State) (c : Nat) :
    ((bkclrBody op cid f s).state s).fileOf c = s.fileOf c := by
  unfold bkclrBody; dsimp only; split <;> simp
@[simp] theorem bkscanBody_fileOf (op : Nat) (cid : Nat) (f : Fields) (s : State) (c : Nat) (_hne : c ≠ cid) :
    ((bkscanBody op cid f s).state s).fileOf c = s.fileOf c := by
  unfold bkscanBody; dsimp only; (repeat' split) <;> simp
@[simp] theorem State.linkOut_fileOf (s : State) (acc : Nat) (bs : List Byte) (c : Nat) :
    (s.linkOut acc bs).fileOf c = s.fileOf c := by
  unfold State.linkOut; split <;> simp
@[simp] theorem State.toBin_fileOf (s : State) (m : Nat) (r : BinRec) (c : Nat) :
    (s.toBin m r).fileOf c = s.fileOf c := by
  rfl
@[simp] theorem State.settleWork_fileOf (s : State) (h : Option Word32) (status : Nat) (c : Nat) :
    (s.settleWork h status).fileOf c = s.fileOf c := by
  unfold State.settleWork; (repeat' split) <;> simp
@[simp] theorem qnewAnswer_fileOf (s : State) (fn : Nat) (w : Word64) (base : Word64) (c : Nat) :
    (qnewAnswer s fn w base).1.fileOf c = s.fileOf c := by
  unfold qnewAnswer; dsimp only; (repeat' split) <;> simp (disch := first | exact fun _ => rfl | exact fun _ _ => rfl | exact fun _ _ => Ctx.settled_file _ _ _ _ _ | assumption | (intros; split <;> rfl) | (intros; simp; done))
@[simp] theorem qnewBody_fileOf (cid : Nat) (f : Fields) (s : State) (c : Nat) (hne : c ≠ cid) :
    ((qnewBody cid f s).state s).fileOf c = s.fileOf c := by
  unfold qnewBody; dsimp only; split <;> simp [State.fileOf_updCtx_ne, hne]
@[simp] theorem qdelBody_fileOf (cid : Nat) (f : Fields) (s : State) (c : Nat) (hne : c ≠ cid) :
    ((qdelBody cid f s).state s).fileOf c = s.fileOf c := by
  unfold qdelBody; dsimp only; (repeat' split) <;> simp [hne]
@[simp] theorem workFuture_fileOf (s : State) (cid : Nat) (f : Fields) (c : Nat) (hne : c ≠ cid) :
    (workFuture s cid f).1.fileOf c = s.fileOf c := by
  unfold workFuture; split
  · rfl
  · split
    · rename_i hr; have := State.engineFuture_fileOf _ _ _ hr c; simpa [hne] using this
    · rfl
@[simp] theorem State.hold_fileOf (s : State) (h : Held) (c : Nat) :
    (s.hold h).fileOf c = s.fileOf c := by
  unfold State.hold; split <;> simp
@[simp] theorem emitBody_fileOf (inv : Bool) (cid : Nat) (f : Fields) (s : State) (c : Nat) (hne : c ≠ cid) :
    ((emitBody inv cid f s).state s).fileOf c = s.fileOf c := by
  unfold emitBody; dsimp only; (repeat' split) <;> simp [State.fileOf_updCtx_ne, hne]
@[simp] theorem State.hasRdone_fileOf (s : State) (blk : Nat) (c : Nat) :
    (s.hasRdone blk).fileOf c = s.fileOf c := by
  simp [State.hasRdone]
@[simp] theorem rdoneBody_fileOf (cid : Nat) (f : Fields) (s : State) (c : Nat) (hne : c ≠ cid) :
    ((rdoneBody cid f s).state s).fileOf c = s.fileOf c := by
  have h0 : ∀ r, (if f.nowb then some (s, none) else (s.engineFuture cid).map fun p => (p.1.writeHandle cid f.d p.2, some p.2)) = some r → r.1.fileOf c = s.fileOf c := by
    intro r h; split at h
    · cases h; rfl
    · obtain ⟨p, hp, rfl⟩ := Option.map_eq_some_iff.mp h
      simpa [hne] using State.engineFuture_fileOf _ _ _ hp c
  unfold rdoneBody; dsimp only; split
  · simp
  · rename_i h; have := h0 _ h
    (repeat' split) <;> simpa using this

/-- An attempt to issue leaves every other context's registers alone when the meaning does. -/
theorem State.attempt_fileOf (s : State) (cid op : Nat) (f : Fields) (i : Instr) (body : Nat → Fields → State → Res) (c : Nat) (hne : c ≠ cid)
    (hb : ∀ s0, ((body cid f s0).state s0).fileOf c = s0.fileOf c) : (s.attempt cid op f i body).fileOf c = s.fileOf c := by
  have h := hb s
  unfold State.attempt; dsimp only; split
  · simp [State.fileOf_updCtx_ne, hne]
  · split <;> simp [State.fileOf_updCtx_ne, hne]
  · simp
  · simp
  · simp [hne]
  · split <;> rename_i e <;> rw [e] at h <;> simp [hne] at h ⊢ <;> exact h
/-- Issuing leaves every other context's registers alone when the meaning does. -/
theorem issue_fileOf (i : Instr) (op : Nat) (f : Fields) (body : Nat → Fields → State → Res) (s t : State) (c : Nat) (hne : s.cur ≠ some c)
    (hb : ∀ cid, c ≠ cid → ∀ s0, ((body cid f s0).state s0).fileOf c = s0.fileOf c) (h : issue i op f body s = .next t) :
    t.fileOf c = s.fileOf c := by
  unfold issue at h; split at h
  · cases h; rfl
  · rename_i cid hc
    have hn : c ≠ cid := fun e => hne (e ▸ hc)
    split at h
    · cases h; exact State.attempt_fileOf s cid op f i body c hn (hb cid hn)
    · cases h; simp
theorem issueShort_fileOf (i : Instr) (body : Nat → Nat → Fields → State → Res) (s t : State) (c : Nat) (hne : s.cur ≠ some c)
    (hb : ∀ op f cid, c ≠ cid → ∀ s0, ((body op cid f s0).state s0).fileOf c = s0.fileOf c) (h : issueShort i body s = .next t) :
    t.fileOf c = s.fileOf c := by
  unfold issueShort at h; split at h
  · exact issue_fileOf _ _ _ _ _ _ _ hne (hb _ _) h
  · cases h; rfl

end Sys2Proof.Machine
end

