-- ==== Sys2Proof/Laws/Issue.lean ====
section
/-! SUPPORT. Issue: the checks pass exactly when the context is ready, and what issue then answers for each way a meaning
ends. -/
namespace Sys2Proof.Machine

/-- The checks let a ready instruction through. -/
theorem gate_of_ready {s : State} {cid op : Nat} {f : Fields} {i : Instr} (h : Ready s cid op f i) : gate s cid op f i = none := by
  have hs : ((op == 0x06 && !(specialRegs.any fun e => e.1 == sysIndex f && e.2)) || (op == 0x03 && !(s.ctx cid).handling)) = false := by
    have h1 := h.special
    have h2 := h.handling
    by_cases e : op = 0x06
    · subst e; simp [h1 rfl]
    · by_cases e3 : op = 0x03
      · subst e3; simp [h2 rfl]
      · simp [e, e3]
  have hn : (namesPn op f && (s.ctx cid).rowid == 0) = false := by
    have := h.north
    cases hp : namesPn op f <;> simp_all
  have hl : (!i.wf) = false := by simp [h.legal]
  have hw : ((s.ctx cid).awaits (namedRegs (s.ctx cid) op f) || s.latchAwaits cid (namedRegs (s.ctx cid) op f)
      || flagsWait (s.ctx cid) (namedRegs (s.ctx cid) op f)) = false := by rw [h.landed, h.latched, h.flags]; rfl
  unfold gate
  simp only [h.awake, hl, hw, h.word, hs, h.latches, hn, h.slots, h.clean, h.unstalled, h.settled, h.sound, h.buckets, h.baton,
    h.acquired, h.joined, Bool.false_eq_true, if_false, and_self, if_true, List.isEmpty_nil, Bool.not_true]
theorem of_ite_some {α : Type} {c : Prop} [Decidable c] {v : α} {t : Option α} (h : (if c then some v else t) = none) : ¬ c ∧ t = none := by
  by_cases e : c
  · rw [if_pos e] at h; cases h
  · rw [if_neg e] at h; exact ⟨e, h⟩
/-- Nothing but a ready instruction gets through the checks. -/
theorem ready_of_gate {s : State} {cid op : Nat} {f : Fields} {i : Instr} (ht : s.cur = some cid) (hp : (s.ctx? cid).isSome = true)
    (h : gate s cid op f i = none) : Ready s cid op f i := by
  unfold gate at h
  dsimp only at h
  obtain ⟨awake, h⟩ := of_ite_some h
  obtain ⟨acq, h⟩ := of_ite_some h
  obtain ⟨legal, h⟩ := of_ite_some h
  obtain ⟨landed, h⟩ := of_ite_some h
  obtain ⟨word, h⟩ := of_ite_some h
  obtain ⟨special, h⟩ := of_ite_some h
  obtain ⟨latches, h⟩ := of_ite_some h
  obtain ⟨north, h⟩ := of_ite_some h
  cases slots : (slotsOf s cid op f).find? fun e => !s.ownsSlot cid e.1 with
  | some e => rw [slots] at h; cases h
  | none =>
  rw [slots] at h
  cases clean : spoiled s cid op f with
  | some e => rw [clean] at h; cases h
  | none =>
  rw [clean] at h
  obtain ⟨unstalled, h⟩ := of_ite_some h
  cases settled : pendingMark s (marksRead (s.ctx cid) op f) with
  | some e => rw [settled] at h; cases h
  | none =>
  rw [settled] at h
  obtain ⟨joined, h⟩ := of_ite_some h
  by_cases buckets : priceOf s cid op f ≤ (s.ctx cid).granted ∧ (¬ (op = 0xC0 ∨ op = 0xC1) ∨ (s.prow (rowOf cid)).baton = some (planeOf cid))
  case neg => rw [if_neg buckets] at h; cases h
  rw [if_pos buckets] at h
  cases sound : failedMark s (marksRead (s.ctx cid) op f) with
  | some e => rw [sound] at h; cases h
  | none =>
  simp only [Bool.not_eq_true, Bool.or_eq_false_iff] at awake acq landed word special latches north unstalled
  exact {
    turn := ht, present := hp, awake := awake, legal := by simpa using legal, landed := landed.1.1, latched := landed.1.2, flags := landed.2, acquired := acq
    joined := by simpa using joined, word := word, special := fun e => by simpa [e] using special.1, handling := fun e => by simpa [e] using special.2
    latches := latches, north := fun e => by simpa [e] using north, slots := slots, clean := clean, unstalled := unstalled, settled := settled
    sound := sound, buckets := buckets.1, baton := buckets.2 }
/-- What an instruction leaves where nothing of R85 and R106 stops it, for each way its meaning ends. -/
theorem issue_gate {s : State} {cid op : Nat} {f : Fields} {i : Instr} (body : Nat → Fields → State → Res) (h : Ready s cid op f i) :
    issue i op f body s = .next (
      let x := s.ctx cid
      let look := x.repollAt == some (s.now cid)
      match body cid f s with
      | .done t => t.issued s cid op f (s.nextPc cid i)
      | .jump t pc => t.issued s cid op f pc
      | .stay st => ((s.waitAt cid i st false).endChainAt cid st).noted 3
      | .hold t st => ((t.waitAt cid i st (x.begins st)).beginChain cid op (x.begins st) (chainBit x op f)).noted (if x.begins st then 4 else 3)
      | .park t w st => (((t.waitAt cid i st (look || x.begins st)).beginChain cid op (x.begins st) (chainBit x op f)).park cid w).noted
          (if look || x.begins st then 4 else 3)
      | .trap c m a hd => s.trapAt cid (trapOf s cid i c m a hd)
      | .trapWith t c m a hd => t.trapAt cid (trapOf s cid i c m a hd)) := by
  simp only [issue, h.turn, h.present, if_true, State.attempt, gate_of_ready h]
  cases body cid f s <;> rfl
/-- An effect that takes place. -/
theorem issue_done {s : State} {cid op : Nat} {f : Fields} {i : Instr} {body : Nat → Fields → State → Res} {t : State}
    (h : Ready s cid op f i) (hb : body cid f s = .done t) :
    issue i op f body s = .next (t.issued s cid op f (s.nextPc cid i)) := by rw [issue_gate body h, hb]
/-- An effect that takes place and goes on elsewhere. -/
theorem issue_jump {s : State} {cid op : Nat} {f : Fields} {i : Instr} {body : Nat → Fields → State → Res} {t : State} {pc : Word64}
    (h : Ready s cid op f i) (hb : body cid f s = .jump t pc) :
    issue i op f body s = .next (t.issued s cid op f pc) := by rw [issue_gate body h, hb]
/-- A trap found by the meaning. -/
theorem issue_trap {s : State} {cid op : Nat} {f : Fields} {i : Instr} {body : Nat → Fields → State → Res} {c : Nat} {m : Word32} {a hd : Word64}
    (h : Ready s cid op f i) (hb : body cid f s = .trap c m a hd) :
    issue i op f body s = .next (s.trapAt cid (trapOf s cid i c m a hd)) := by rw [issue_gate body h, hb]
/-- A short form issues as its long equivalent. -/
theorem issueShort_eq {i : Instr} {op : Nat} {f : Fields} (body : Nat → Nat → Fields → State → Res) (s : State) (h : i.expand? = some (op, f)) :
    issueShort i body s = issue i op f (body op) s := by simp [issueShort, h]

/-! ### What issue leaves of the issuing context -/
theorem State.ctx?_updCtx (s : State) (c cid : Nat) (f : Ctx → Ctx) :
    (s.updCtx cid f).ctx? c = if c = cid then (s.ctx? cid).map f else s.ctx? c := by
  unfold State.updCtx
  split
  · rename_i x hx; simp only [State.ctx?, State.setCtx, Tables.get?_set] at *; split <;> simp_all
  · rename_i hx; split <;> simp_all
theorem State.ctx?_updCtx_self (s : State) (cid : Nat) (f : Ctx → Ctx) : (s.updCtx cid f).ctx? cid = (s.ctx? cid).map f := by
  simp [State.ctx?_updCtx]
@[simp] theorem State.ctx?_updRow (s : State) (p : Nat) (f : PhysRow → PhysRow) (c : Nat) : (s.updRow p f).ctx? c = s.ctx? c := rfl
@[simp] theorem State.ctx?_updGrid (s : State) (g : Nat) (f : Grid → Grid) (c : Nat) : (s.updGrid g f).ctx? c = s.ctx? c := rfl
@[simp] theorem State.ctx?_updBlock (s : State) (b : Nat) (f : Block → Block) (c : Nat) : (s.updBlock b f).ctx? c = s.ctx? c := by
  unfold State.updBlock; split <;> rfl
@[simp] theorem State.ctx?_returnBuckets (s : State) (g n c : Nat) : (s.returnBuckets g n).ctx? c = s.ctx? c := by
  unfold State.returnBuckets; split <;> rfl
@[simp] theorem State.ctx?_noted (s : State) (v c : Nat) : (s.noted v).ctx? c = s.ctx? c := rfl
@[simp] theorem State.grid_updCtx (s : State) (c : Nat) (f : Ctx → Ctx) (g : Nat) : (s.updCtx c f).grid g = s.grid g := by
  unfold State.updCtx; split <;> rfl
@[simp] theorem State.now_updCtx (s : State) (c : Nat) (f : Ctx → Ctx) (k : Nat) : (s.updCtx c f).now k = s.now k := by simp [State.now]
@[simp] theorem State.now_updRow (s : State) (p : Nat) (f : PhysRow → PhysRow) (k : Nat) : (s.updRow p f).now k = s.now k := rfl
/-- Taking the row's issue slot leaves the context itself as it is, but for its unchosen count. -/
theorem State.beginIssue_ctx? (s : State) (cid : Nat) : (s.beginIssue cid).ctx? cid = (s.ctx? cid).map fun x => { x with unchosen := 0 } := by
  have hp : ∀ p, p < 4 → (4 * rowOf cid + p = cid ↔ p = planeOf cid) := by intro p hp; simp only [rowOf, planeOf]; omega
  have hc : cyclicAfter (planeOf cid) = [(planeOf cid + 1) % 4, (planeOf cid + 2) % 4, (planeOf cid + 3) % 4, planeOf cid] := by
    have : planeOf cid < 4 := by simp only [planeOf]; omega
    generalize planeOf cid = p at *
    have : p = 0 ∨ p = 1 ∨ p = 2 ∨ p = 3 := by omega
    rcases this with rfl | rfl | rfl | rfl <;> rfl
  have hl : planeOf cid < 4 := by simp only [planeOf]; omega
  unfold State.beginIssue
  simp only [hc, List.foldl_cons, List.foldl_nil, State.ctx?_updCtx, State.ctx?_updRow]
  have h1 := hp ((planeOf cid + 1) % 4) (by omega)
  have h2 := hp ((planeOf cid + 2) % 4) (by omega)
  have h3 := hp ((planeOf cid + 3) % 4) (by omega)
  have h4 := hp (planeOf cid) hl
  have d1 : 4 * rowOf cid + (planeOf cid + 1) % 4 ≠ cid := by omega
  have d2 : 4 * rowOf cid + (planeOf cid + 2) % 4 ≠ cid := by omega
  have d3 : 4 * rowOf cid + (planeOf cid + 3) % 4 ≠ cid := by omega
  simp only [h4.mpr rfl, d1.symm, d2.symm, d3.symm, if_true, if_false]
theorem State.grid_beginIssue (s : State) (cid g : Nat) : (s.beginIssue cid).grid g = s.grid g := by
  have h (l : List Nat) (u : Nat → Nat) (k : Nat → Ctx → Ctx) (t : State) : (l.foldl (fun s sl => s.updCtx (u sl) (k sl)) t).grid g = t.grid g := by
    induction l generalizing t with
    | nil => rfl
    | cons a l ih => rw [List.foldl_cons, ih, State.grid_updCtx]
  simp only [State.beginIssue]
  rw [h]; rfl
@[simp] theorem State.now_beginIssue (s : State) (cid k : Nat) : (s.beginIssue cid).now k = s.now k := by simp [State.now, State.grid_beginIssue]
/-- The context after an issue. -/
theorem State.ctx?_issued (t s : State) (cid op : Nat) (f : Fields) (pc : Word64) :
    (t.issued s cid op f pc).ctx? cid = (t.ctx? cid).map fun y => y.retire pc (t.now cid) := by
  simp only [State.issued, State.retire, State.chainOn, State.ctx?_noted]
  split <;> simp only [State.ctx?_updRow, State.ctx?_updBlock, State.ctx?_returnBuckets, State.ctx?_updCtx_self, State.now_beginIssue, State.beginIssue_ctx?,
    Option.map_map] <;> rfl
/-- The other contexts' registers after an issue. -/
theorem State.fileOf_issued_ne (t s : State) {cid c : Nat} (op : Nat) (f : Fields) (pc : Word64) (h : c ≠ cid) :
    (t.issued s cid op f pc).fileOf c = t.fileOf c := by
  simp [State.issued, h]
@[simp] theorem State.core_issued (t s : State) (cid op : Nat) (f : Fields) (pc : Word64) : (t.issued s cid op f pc).core = t.core := by
  simp [State.issued]

end Sys2Proof.Machine
end

