-- ==== Sys2Proof/Laws/Memory.lean ====
section
/-! SUPPORT. Memory: every operation keeps the canonical form, and what a read gives after a write. -/
namespace Sys2Proof.Machine.Mem

theorem wfFrom_some_of_none {m : Mem} : wfFrom none m = true → ∀ lo, (∀ c, m.head? = some c → lo < c.1) → wfFrom (some lo) m = true := by
  cases m with
  | nil => intros; rfl
  | cons c m => intro h lo hl; simp [wfFrom] at h ⊢; exact ⟨⟨hl c rfl, h.1⟩, h.2⟩
theorem wfFrom_weaken {m : Mem} {lo : Nat} (h : wfFrom (some lo) m = true) : wf m = true := by
  cases m with
  | nil => rfl
  | cons c m => simp [wf, wfFrom] at h ⊢; exact ⟨h.1.2, h.2⟩
theorem wfFrom_lower {m : Mem} {a b : Nat} (hab : a ≤ b) (h : wfFrom (some b) m = true) : wfFrom (some a) m = true := by
  cases m with
  | nil => rfl
  | cons c m => simp [wfFrom] at h ⊢; exact ⟨⟨by omega, h.1.2⟩, h.2⟩
/-- What lies below every listed address reads 0. -/
theorem read_below {m : Mem} {lo a : Nat} (h : wfFrom (some lo) m = true) (ha : a ≤ lo) : read m a = 0#8 := by
  induction m generalizing lo with
  | nil => rfl
  | cons c m ih =>
    simp [wfFrom] at h
    have hne : c.1 ≠ a := by omega
    simp only [read, if_neg hne]
    exact ih h.2 (by omega)

theorem put_wfFrom {m : Mem} {lo a : Nat} {b : Byte} (h : wfFrom (some lo) m = true) (ha : lo < a) :
    wfFrom (some lo) (put a b m) = true := by
  induction m generalizing lo with
  | nil => by_cases hb : b = 0#8 <;> simp [put, hb, wfFrom, ha]
  | cons c m ih =>
    simp only [wfFrom, Bool.and_eq_true, decide_eq_true_eq] at h
    obtain ⟨⟨h1, h2⟩, h3⟩ := h
    unfold put
    by_cases hlt : a < c.1
    · by_cases hb : b = 0#8
      · simp [hlt, hb, wfFrom, h1, h3]; simpa using h2
      · simp [hlt, hb, wfFrom, ha, h3]; simpa using h2
    · by_cases heq : a = c.1
      · subst heq
        by_cases hb : b = 0#8
        · simp [hb]; exact wfFrom_lower (by omega) h3
        · simp [hb, wfFrom, ha, h3]
      · simp only [hlt, heq, if_false, wfFrom, Bool.and_eq_true, decide_eq_true_eq]
        exact ⟨⟨h1, h2⟩, ih h3 (by omega)⟩
@[simp] theorem put_wf {m : Mem} {a : Nat} {b : Byte} (h : wf m = true) : wf (put a b m) = true := by
  cases m with
  | nil => by_cases hb : b = 0#8 <;> simp [put, hb, wf, wfFrom]
  | cons c m =>
    simp only [wf, wfFrom, Bool.and_eq_true] at h
    obtain ⟨h2, h3⟩ := h
    unfold put
    by_cases hlt : a < c.1
    · by_cases hb : b = 0#8
      · simp [hlt, hb, wf, wfFrom, h3]; simpa using h2
      · simp [hlt, hb, wf, wfFrom, h3]; simpa using h2
    · by_cases heq : a = c.1
      · by_cases hb : b = 0#8
        · simp [heq, hb]; exact wfFrom_weaken h3
        · simp [heq, hb, wf, wfFrom, h3]
      · simp only [hlt, heq, if_false, wf, wfFrom, Bool.and_eq_true]
        exact ⟨h2, put_wfFrom h3 (by omega)⟩
theorem read_put_wfFrom {m : Mem} {lo a : Nat} (x : Nat) (b : Byte) (h : wfFrom (some lo) m = true) :
    read (put a b m) x = if x = a then b else read m x := by
  induction m generalizing lo with
  | nil => by_cases hb : b = 0#8 <;> grind [put, read]
  | cons c m ih =>
    simp only [wfFrom, Bool.and_eq_true, decide_eq_true_eq] at h
    have hb := read_below (a := x) h.2
    have := ih h.2
    grind [put, read]
/-- A byte put reads back; every other byte is as it was. -/
theorem read_put {m : Mem} {a : Nat} (x : Nat) (b : Byte) (h : wf m = true) :
    read (put a b m) x = if x = a then b else read m x := by
  cases m with
  | nil => by_cases hb : b = 0#8 <;> grind [put, read]
  | cons c m =>
    simp only [wf, wfFrom, Bool.and_eq_true] at h
    have hb := read_below (a := x) h.2
    have := read_put_wfFrom (a := a) x b h.2
    grind [put, read]
/-- A put leaves every other byte, whatever the form of the memory. -/
theorem read_put_ne {m : Mem} {a x : Nat} (b : Byte) (h : x ≠ a) : read (put a b m) x = read m x := by
  induction m with
  | nil => by_cases hb : b = 0#8 <;> grind [put, read]
  | cons c m ih => grind [put, read]
@[simp] theorem writeN_wf {m : Mem} {a : Nat} {bs : List Byte} (h : wf m = true) : wf (writeN m a bs) = true := by
  induction bs generalizing m a with
  | nil => exact h
  | cons b bs ih => exact ih (put_wf h)
theorem read_writeN_out {m : Mem} {a x : Nat} {bs : List Byte} (h : x < a ∨ a + bs.length ≤ x) :
    read (writeN m a bs) x = read m x := by
  induction bs generalizing m a with
  | nil => rfl
  | cons b bs ih =>
    simp only [List.length_cons] at h
    rw [writeN, ih (by omega), read_put_ne _ (by omega)]
theorem read_writeN_in {m : Mem} {a i : Nat} {bs : List Byte} (h : wf m = true) (hi : i < bs.length) :
    read (writeN m a bs) (a + i) = bs.getD i 0#8 := by
  induction bs generalizing m a i with
  | nil => simp at hi
  | cons b bs ih =>
    cases i with
    | zero => rw [writeN, read_writeN_out (by omega), read_put _ _ h]; simp
    | succ i =>
      have := ih (m := put a b m) (a := a + 1) (i := i) (put_wf h) (by simpa using hi)
      rw [writeN, show a + (i + 1) = a + 1 + i by omega, this]; simp
@[simp] theorem writeNum_wf {m : Mem} {a n x : Nat} (h : wf m = true) : wf (writeNum m a n x) = true := writeN_wf h
theorem filter_wfFrom {m : Mem} {lo : Nat} (p : Host.Cell → Bool) (h : wfFrom (some lo) m = true) : wfFrom (some lo) (m.filter p) = true := by
  induction m generalizing lo with
  | nil => rfl
  | cons c m ih =>
    simp only [wfFrom, Bool.and_eq_true, decide_eq_true_eq] at h
    by_cases hp : p c = true
    · simp only [List.filter_cons_of_pos hp, wfFrom, Bool.and_eq_true, decide_eq_true_eq]; exact ⟨h.1, ih h.2⟩
    · rw [List.filter_cons_of_neg (by simpa using hp)]; exact wfFrom_lower (by omega) (ih h.2)
theorem filter_wf {m : Mem} (p : Host.Cell → Bool) (h : wf m = true) : wf (m.filter p) = true := by
  cases m with
  | nil => rfl
  | cons c m =>
    simp only [wf, wfFrom, Bool.and_eq_true] at h
    by_cases hp : p c = true
    · simp only [List.filter_cons_of_pos hp, wf, wfFrom, Bool.and_eq_true]; exact ⟨h.1, filter_wfFrom p h.2⟩
    · rw [List.filter_cons_of_neg (by simpa using hp)]; exact wfFrom_weaken (filter_wfFrom p h.2)
@[simp] theorem clear_wf {m : Mem} {a n : Nat} (h : wf m = true) : wf (clear m a n) = true := filter_wf _ h
theorem foldl_put_wf {l : List Host.Cell} {a : Nat} {m : Mem} (h : wf m = true) :
    wf (l.foldl (fun m c => put (a + c.1) c.2 m) m) = true := by
  induction l generalizing m with
  | nil => exact h
  | cons c l ih => exact ih (put_wf h)
@[simp] theorem paste_wf {m : Mem} {a n : Nat} {src : Mem} (h : wf m = true) : wf (paste m a n src) = true := foldl_put_wf (clear_wf h)
theorem readN_length (m : Mem) (a n : Nat) : (readN m a n).length = n := by
  induction n generalizing a with
  | zero => rfl
  | succ n ih => simp [readN, ih]
/-- The bytes stored read back. -/
theorem readN_writeN {m : Mem} {a : Nat} {bs : List Byte} (h : wf m = true) : readN (writeN m a bs) a bs.length = bs := by
  induction bs generalizing m a with
  | nil => rfl
  | cons b bs ih =>
    rw [writeN, List.length_cons, readN, ih (put_wf h), read_writeN_out (by omega), read_put _ _ h]; simp

end Sys2Proof.Machine.Mem
end

