-- ==== Sys2Proof/Tests/Slice0.lean ====
section
/-! SUPPORT. The author's tests: an ill-formed term for each encoding check, words of the spec's encodings and what they decode to, edge cases from the
spec's tables and worked examples, and for every statement a state and operands that meet what it assumes. -/
namespace Sys2Proof.Tests
set_option Elab.async false
open Sys2Proof Sys2Proof.Machine Sys2Proof.Claims

/-! ### What WellFormed refuses (R84) -/
theorem test_wf_ok : (Instr.sadd { mod := .i64, d := .s 3, a := .s 4, b := .s 5 }).wf = true := by decide
theorem test_wf_class : (Instr.sadd { mod := .i64, d := .v 3, a := .s 4, b := .s 5 }).wf = false := by decide
theorem test_wf_unused : (Instr.sadd { mod := .i64, d := .s 3, a := .s 4, b := .s 5, c := .s 0 }).wf = false := by decide
theorem test_wf_mod : (Instr.sadd { mod := .f32, d := .s 3, a := .s 4, b := .s 5 }).wf = false := by decide
theorem test_wf_fn : (Instr.sadd { mod := .i64, fn := 1, d := .s 3, a := .s 4, b := .s 5 }).wf = false := by decide
theorem test_wf_guard : (Instr.sadd { mod := .i64, guard := 1, d := .s 3, a := .s 4, b := .s 5 }).wf = false := by decide
theorem test_wf_inverse : (Instr.sadd { mod := .i64, ginv := true, d := .s 3, a := .s 4, b := .s 5 }).wf = false := by decide
theorem test_wf_capture : (Instr.sadd { mod := .i64, capture := true, d := .s 3, a := .s 4, b := .s 5 }).wf = false := by decide
theorem test_wf_latch : (Instr.vaddInt { mod := .i32, latch := 1, d := .v 3, a := .v 4, b := .v 5 }).wf = false := by decide
theorem test_wf_nowb : (Instr.st { mod := .i32, nowb := true, d := .s 3, a := .v 4, b := .zero }).wf = false := by decide
theorem test_wf_literal : (Instr.sadd { form := .x 7, mod := .i64, d := .s 3, a := .s 4, b := .s 5 }).wf = false := by decide
theorem test_wf_literal_in_l : (Instr.sadd { mod := .i64, d := .s 3, a := .s 4, b := .lit }).wf = false := by decide
theorem test_wf_l_only : (Instr.jmp { form := .x 7, a := .lit }).wf = false := by decide
theorem test_wf_m15_written : (Instr.mnot { d := .v 15, a := .v 0 }).wf = false := by decide
theorem test_wf_special : (Instr.sget { d := .s 5, b := .v 63, c := .v 0 }).wf = false := by decide
theorem test_wf_convert_same : (Instr.vcvt { mod := .f32, d := .v 1, a := .v 0, b := .v 8, c := .v 0 }).wf = false := by decide
theorem test_wf_accumulators : (Instr.azero { fn := 2, d := .v 14 }).wf = false := by decide
theorem test_wf_short : (Instr.vfmaF32S .ps (.v 1) (.v 2)).wf = false := by decide
theorem test_wf_event : (Instr.wheelStop 16).wf = false := by decide

/-! ### Words of the spec's encodings -/
/-- The instruction of a word. -/
def means (w : Nat) (i : Instr) : Prop := decode w = .ok i
theorem test_decode_scalar : means 0x00213FAD15110C41 (.sadd { fn := 4, mod := .i32, d := .s 3, a := .s 4, b := .s 5 })
    ∧ means 0x0001BC0193AD148D (.sli { mod := .i64, d := .s 5, a := .zero, b := .s 36, c := .v 0 })
    ∧ means 0x00003C0017AD1415 (.sget { d := .s 5, b := .v 5, c := .v 0 }) := by unfold means; decide +kernel
theorem test_decode_control : means 0x00003FAFAFEBAC09 (.trap { a := .const 14 }) ∧ means 0x00003FAFAFAFAC0D (.tret {})
    ∧ means 0x00003C48D3AFAC11 (.brk { b := .v 52, c := .v 18 }) ∧ means 0x00003FAFAFAFAC1D (.yield {}) ∧ means 0x00003FAFAD110C21 (.perf { d := .s 3, a := .s 4 })
    ∧ means 0x00003FAFAFAD0C29 (.mpoint { d := .s 3 }) ∧ means 0x00003C000C03ACC9 (.bmz { a := .v 0, b := .v 3, c := .v 0 }) := by unfold means; decide +kernel
theorem test_decode_vector : means 0x0020BFAC08040D41 (.vaddInt { fn := 4, mod := .i16, d := .v 3, a := .v 1, b := .v 2 })
    ∧ means 0xC0053FA0092BA5A9 (.vdot2 { chain := true, capture := true, mod := .bf16, d := .ps, a := .s 10, b := .v 2, c := .pn })
    ∧ means 0x00053C0420041601 (.vcvt { mod := .bf16, d := .v 5, a := .v 1, b := .v 8, c := .v 1 })
    ∧ means 0x0005BC0920041A05 (.vcvto { mod := .t8, d := .v 6, a := .v 1, b := .s 8, c := .v 2 })
    ∧ means 0x00013FAC283005E1 (.vexpand { mod := .i32, d := .v 1, a := .v 12, b := .v 10 }) := by unfold means; decide +kernel
theorem test_decode_memory : means 0x00113FC809100E41 (.ld { fn := 2, mod := .i32, d := .v 3, a := .s 4, b := .v 2, c := .const 6 })
    ∧ means 0x00013FAFB1101681 (.atom { mod := .i32, d := .v 5, a := .s 4, b := .const 0 })
    ∧ means 0x00012FAD29702A81 (.atom { mod := .i32, guard := 11, d := .v 10, a := .s 28, b := .s 10 })
    ∧ means 0x0004BFAFAD1FAE99 (.bkmac { mod := .f16, a := .s 7 })
    ∧ means 0x0005BFAFE1512ACD (.cpyt { mod := .t8, d := .s 10, a := .s 20, b := .const 12 })
    ∧ means 0x000CBFADF6013AC5 (.cpyg { fn := 1, mod := .f16, d := .s 14, a := .s 64, b := .s 61 }) := by unfold means; decide +kernel
theorem test_decode_matrix : means 0x0005BFAFAD280301 (.mloop { mod := .t8, d := .v 0, a := .s 10 })
    ∧ means 0x00000400000C3FFD19100312 (.ast { form := .x 0x400, fn := 1, mod := .f32, d := .v 0, a := .s 4, b := .s 6, c := .lit }) := by unfold means; decide +kernel
theorem test_decode_sync : means 0x00003FAFAD29174D (.fwait { d := .s 5, a := .s 10 }) ∧ means 0x00183FAFAFAFAF5D (.bar { fn := 3 })
    ∧ means 0x00083FAFAD13AF69 (.mon { fn := 1, a := .s 4 }) ∧ means 0x00003FAFAFAD0F75 (.rtake { d := .s 3 })
    ∧ means 0x00003D1511512B85 (.invoke { d := .s 10, a := .s 20, b := .s 4, c := .s 5 }) ∧ means 0x00003FAFAD0D3391 (.rdone { d := .s 12, a := .s 3 }) := by unfold means; decide +kernel
theorem test_decode_short : means 0x05040308 (.vmulF32S (.v 3) (.v 4) (.v 5)) ∧ means 0 .nopS ∧ means 0x3C .doneS := by unfold means; decide +kernel
/-- Bytes in memory come least significant first (R67); what follows the instruction is left. -/
theorem test_decode_bytes : decodeBytes [0x41, 0x0C, 0x11, 0x15, 0xAD, 0x3F, 0x21, 0x00, 0x99]
    = (.ok (.sadd { fn := 4, mod := .i32, d := .s 3, a := .s 4, b := .s 5 }), [0x99]) := by decide +kernel

/-! ### A row to try instructions on -/
/-- Registers of the row under test. -/
def regs : Vector Word64 160 := tab 160 fun i => match i with | 1 => 1 | 3 => 0x100000 | 4 => 0x200 | _ => 0
/-- Row 0 of one block, with its turn, in a handler, on grid 0, whose slot 0 is ready and slot 1 empty, both the block's. -/
def row : State :=
  let s := State.reset.withFetchWord 64 0
  let s1 := s.updCtx 0 fun x => { x with s := regs, handling := true }
  let tiles : Tbl Tile := [(0, { state := 2, owner := some 0, fmt := 1, gen := 1 }), (1, { owner := some 0 })]
  let s2 := s1.updGrid 0 fun g => { g with tiles := tiles, seen := tiles }
  { s2 with agenda := [], cur := some 0 }
/-- The instruction of a word may issue in a state. -/
def readyWord (s : State) (w : Nat) : Bool :=
  match decode w with
  | .ok i => match i.long?.orElse (fun _ => i.expand?) with
    | some (op, f) => decide (s.cur = some 0) && (s.ctx? 0).isSome && (match gate s 0 op f i with | none => true | some _ => false)
    | none => false
  | .error _ => false

/-- The row with some scalar registers changed, and with its context changed. -/
def rowS (l : List (Nat × Word64)) : State := row.updCtx 0 fun x => l.foldl (fun y e => y.setS e.1 e.2) x
def rowX (f : Ctx → Ctx) : State := row.updCtx 0 f
/-- The state after an instruction. -/
def after (i : Instr) (s : State) : State := match exec i s with | .next t => t | _ => s
/-- A scalar result of s4 and s5, at once or in flight. -/
def scalar (i : Instr) (a b : Word64) : Word64 :=
  let x := (after i (rowS [(4, a), (5, b)])).ctx 0
  match x.inflight.getLast? with | some r => (match r.writes with | [.s _ v] => v | _ => 0) | none => x.sreg 3
/-- Lane 0 of the result of v1, v2 and v3. -/
def lane0 (i : Instr) (a b c : Word32) : Word32 :=
  let x := (after i (rowX fun y => ((y.setV 1 (Lanes.all a) 0xFFFFFFFF#32).setV 2 (Lanes.all b) 0xFFFFFFFF#32).setV 3 (Lanes.all c) 0xFFFFFFFF#32)).ctx 0
  match x.inflight.getLast? with | some r => (match r.writes with | [.v _ v _] => v.get 0 | _ => 0xDEAD) | none => 0xBEEF
def alu (mod : Ty) (fn : BitVec 5 := 0) : Fields := { mod := mod, fn := fn, d := .s 3, a := .s 4, b := .s 5 }
def valu (mod : Ty) (fn : BitVec 5 := 0) (b c : Operand := .zero) : Fields := { mod := mod, fn := fn, d := .v 5, a := .v 1, b := b, c := c }

/-! ### Edge cases from the spec's tables -/
/-- The table at the end of R153. -/
theorem test_scalar_edges : scalar (.sadd (alu .i8 4)) 100 100 = 127 ∧ scalar (.sadd (alu .i8)) 100 100 = 0xFFFFFFFFFFFFFFC8 ∧ scalar (.ssub (alu .n16 4)) 3 5 = 0
    ∧ scalar (.sshr (alu .i16)) 0x8000 4 = 0x0800 ∧ scalar (.sshr (alu .i16)) 0x8000 0 = 0xFFFFFFFFFFFF8000 ∧ scalar (.ssar (alu .i8)) 0x80 9 = -1
    ∧ scalar (.sshl (alu .i64)) 1 64 = 0 ∧ scalar (.smulh (alu .n64)) (-1) (-1) = 0xFFFFFFFFFFFFFFFE ∧ scalar (.smulh (alu .i64)) (-1) (-1) = 0 := by decide +kernel
theorem test_divide_edges : scalar (.sdiv (alu .n32)) 7 0 = 0xFFFFFFFF ∧ scalar (.srem (alu .i64)) (-7) 0 = -7 ∧ scalar (.sdiv (alu .i32)) (-0x80000000) (-1) = -0x80000000
    ∧ scalar (.sclz { mod := .i32, d := .s 3, a := .s 4 }) 0 0 = 32 := by decide +kernel
/-- The table at the end of R177. -/
theorem test_vector_edges : lane0 (.vaddInt (valu .i8 4 (.v 2))) 0x7F 1 0 = 0x7F ∧ lane0 (.vaddInt (valu .i8 0 (.v 2))) 0x7F 1 0 = 0x80
    ∧ lane0 (.vsubInt (valu .n16 4 (.v 2))) 0x00030003 0x00010005 0 = 0x00020000 ∧ lane0 (.vabsInt (valu .i32 4)) 0x80000000 0 0 = 0x7FFFFFFF
    ∧ lane0 (.vmulh (valu .n16 0 (.v 2))) 0xFFFFFFFF 0xFFFFFFFF 0 = 0xFFFEFFFE ∧ lane0 (.vshl (valu .i8 0 (.v 2))) 0x01010101 0x08070100 0 = 0x00800201
    ∧ lane0 (.vsar (valu .i16 0 (.v 2))) 0x80004000 0x00140001 0 = 0xFFFF2000 ∧ lane0 (.vpopc (valu .i8)) 0x00FF0F01 0 0 = 0x00080401 := by decide +kernel
/-- The example after R193: eight lanes converted to t8, two of them outliers. -/
def outlierRow : State :=
  let l : Lanes := tab 32 fun i => [0x3F800000, 0xC0400000, 0x42C80000, 0x3E99999A, 0xC3480000, 0x7FC00000, 0x3FC00000, 0].getD i 0
  (rowX fun y => ((y.setV 1 l 0xFFFFFFFF#32).setS 8 0x0000080042800000#64).setM 0 0xFF#32)
def outliers : Ctx := (after (.vcvto { mod := .t8, d := .v 6, a := .v 1, b := .s 8, c := .v 2 }) outlierRow).ctx 0
theorem test_outliers : ((outliers.inflight.getLast?.map fun r => r.writes.map fun w => match w with
      | .v _ v _ => ((List.range 8).map fun l => (v.get l).toNat % 256) | .m n m => [n, m.toNat] | .s n v => [n, v.toNat] | _ => [])
    = some [[0x40, 0xD8, 0, 0x73, 0, 0x80, 0x48, 0], [2, 0x14], [8, 0x0000080442800000]])
    ∧ (outliers.stores.map fun st => st.bytes.map fun b => (b.2.1, b.2.2)) = [[(0x800, 0xC8), (0x801, 0x42), (0x802, 0x48), (0x803, 0xC3)]] := by decide +kernel
/-- The example after R145: 16,777,216 plus a step of exactly 1.5 rounds once, to 16,777,218. -/
theorem test_dot_step :
    let a : List Byte := [0xD4, 0x13] ++ List.replicate 30 0
    let b : List Byte := [0x42, 0x69] ++ List.replicate 30 0
    dotStep .t4 0x4B800000 a b [0x60, 0x40] [0x50, 0x40] = 0x4B800001 := by decide +kernel
/-- The example after R253: 16,777,216 + 1 stays with one rounding a line; 3.0 twice gives 6.0. -/
theorem test_bank_step : bankStep fpF16 0x4B800000 0x3800 0x3C00 0x3800 0x3C00 = 0x4B800000 ∧ bankStep fpF16 0 0x4200 0x3C00 0x4200 0x3C00 = 0x40C00000 := by decide +kernel

/-! ### Witnesses: for each statement, a state and operands that meet what it assumes -/
theorem ready_of_readyWord {s : State} {w : Nat} (h : readyWord s w = true) :
    ∃ i op f, decode w = .ok i ∧ (i.long?.orElse fun _ => i.expand?) = some (op, f) ∧ Ready s 0 op f i := by
  unfold readyWord at h
  split at h
  · rename_i i hi
    split at h
    · rename_i op f ho
      simp only [Bool.and_eq_true, decide_eq_true_eq] at h
      refine ⟨i, op, f, hi, ho, ready_of_gate h.1.1 h.1.2 ?_⟩
      split at h <;> simp_all
    · cases h
  · cases h
/-- Words all of which may issue in the row. -/
def may (l : List Nat) : Bool := l.all fun w => readyWord row w
theorem may_ready {l : List Nat} (h : may l = true) : ∀ w ∈ l, ∃ i op f, decode w = .ok i ∧ (i.long?.orElse fun _ => i.expand?) = some (op, f) ∧ Ready row 0 op f i :=
  fun w hw => ready_of_readyWord (List.all_eq_true.1 h w hw)
theorem ready_ScalarAluResult : may [0x2BFAD0D2D004D, 0x3BFAD050D0459, 0x33FAD2D2D105D, 0x2BFAFAD011461, 0x33FAD0FAD1065, 0x1BFAD15151069, 0x3BFAD13AD046D, 0x3BFAD0D010071, 0x13FAD01050475, 0x1BFAFAD110479, 0xBFAFAD052C7D] = true := by decide +kernel
theorem ready_ScalarSumResult : may [0x213FAD11111441, 0x33FAD17AD0C45, 0x1BFAD2D2D0449] = true := by decide +kernel
theorem ready_ScalarDivideResult : may [0x33FAD150D0C51, 0x3FAFAFAD2C55] = true := by decide +kernel
theorem ready_ScalarOtherResult : may [0x13FAD05050081, 0x3D03AD2D0C85, 0x13FAFAFAD0C89, 0x1BF8003AD008D, 0x1BD0513AD0091, 0x3D07AFAD0095, 0x1BFAD11011099, 0x1BD07AD010C9D, 0x3D03AD052CA1] = true := by decide +kernel
theorem ready_BranchResult : may [0x3F8387AFACC1, 0x3D040113ACC5, 0x3D2D0C03ACC9, 0x3D2D0017ACCD, 0x3C17AFAFACD5, 0x3D1417AD2CE1] = true := by decide +kernel
theorem ready_MaskResult : may [0x3FAC08000501, 0x3FAC04140105, 0x3FAC08081509, 0x3FAC1404090D, 0x3FAFAC081511, 0x3FAFAD0C0915, 0x3FAFAC152D19, 0x3FAFAC152D1D, 0x3FAFAC091121, 0x3FAFAD140525] = true := by decide +kernel
theorem ready_SpecialRegisters : may [0x3C0017AD1415, 0x3C008D13AC19] = true := by decide +kernel
theorem ready_RowControl : may [0x3FAFAFAFAC01, 0x3FAFAFAFAC05, 0x3FAFAFAFAC1D, 0x3FAFAFAD0021, 0x3FAFAFAFAC25, 0x3FAFAFAFAC29] = true := by decide +kernel
theorem ready_VectorIntResult : may [0xBFAD15140541, 0x33FAD10000545, 0xBFAD04080949, 0x13FAD0D00054D, 0x3FAD05141551, 0x33FAD0C040555, 0x23FAD11100559, 0x23FAFAC14055D, 0xBFAD17AC0161, 0x23FAD0C040565, 0x2BFAD01100169, 0x33FAFAC08016D, 0x23FAD03AC0171, 0x3FAFAC040975, 0x3FAD10001579, 0x2BFAFAC08157D, 0xBFAFAD1005E9] = true := by decide +kernel
theorem ready_VectorFloatResult : may [0x43FAFAD2C0181, 0x43FAC00000585, 0x4BFAC07AC0589, 0x53C152D10018D, 0x24BD050FAC0991, 0xC3D1510000195, 0x4BFAC14140199, 0x43FAC050C019D, 0x43FAFAC1405A1, 0x4BFAFAC0815A5, 0x53D01110401B1, 0x4BFAFAD1401B5, 0x2C3FAD010009B9] = true := by decide +kernel
theorem ready_VectorReduceResult : may [0x53D14150C15A9, 0x7C3FAFAD2C05AD] = true := by decide +kernel
theorem ready_VectorCompareResult : may [0x33FAD050405C1] = true := by decide +kernel
theorem ready_VectorLanes : may [0x13C152FAC01C5, 0x13FAFAD0C01C9, 0x13FAD0D0001CD, 0x13FAD2C050DD1, 0x13FAC17AC05D5, 0x13FAD050C05D9, 0x13FAC150C01DD, 0x13FAC0BAC09E1, 0x1B3FAFAD0401E5] = true := by decide +kernel
theorem ready_VectorConversions : may [0x23C0017AC1601, 0x6BC092D2C0605, 0x23FAC17AC0209, 0x2BFAFAD140A0D] = true := by decide +kernel
theorem ready_SpecialFunctionResult : may [0x4BFAFAD001611, 0x243FAFAC140215, 0x14BFAFAC000A19, 0x4BFAFAFAC021D, 0x4BFAFAC040621, 0x53FAFAC141625, 0x4BFAFAD040229, 0x53FAFAFAC162D, 0x43FAFAD100231] = true := by decide +kernel
theorem ready_LoadResult : may [0x20BD0005000A41, 0x13D17AD000651, 0x23D0D0D151649] = true := by decide +kernel
theorem ready_StoreResult : may [0x32BD050103AE45, 0x1BFAD1115164D] = true := by decide +kernel
theorem ready_StackResult : may [0x3FAFAC0BAE55, 0x3FAFAFAC0A59, 0x3FAFAD0FAE5D, 0x3FAFAFAD0261] = true := by decide +kernel
theorem ready_FenceResult : may [0x3FAFAFAFAE65] = true := by decide +kernel
theorem ready_AtomicResult : may [0xE93D0C17AC0281, 0x91BFAD13AD1685, 0x13FAD2D141689, 0x3BD050115068D] = true := by decide +kernel
theorem ready_BankResult : may [0x3FAFAFAFAE91, 0x3FAFAC17AE95, 0x14BFAFAFAFAE99, 0x43FAFAD0C069D, 0x103FAFAFAFAEA1, 0x13FAD052D2EA5] = true := by decide +kernel
theorem ready_CopyAccepted : may [0x3FAFAD1502C1, 0x6BFAD05010EC5, 0x3FAFAD112EC9, 0x63FAD050106CD, 0x3FAFAD0512D1, 0x3BBD1111150ED5] = true := by decide +kernel
theorem ready_TileSlots : may [0x3FAFAFAD0ED9, 0x3FAFAFAFAEDD, 0x3FAFAFAD06E1] = true := by decide +kernel
theorem ready_MatrixStarted : may [0x5BFAD050C1701, 0x5BFAFAD2C0B05] = true := by decide +kernel
theorem ready_AccumulatorMoves : may [0x3FAFAFAC0309, 0x43FAFAC04070D, 0x153FAD01041711, 0x3FAFAD2FAF15] = true := by decide +kernel
theorem ready_FutureMadeAndSettled : may [0x3FAFAFAD1341, 0x3FAFAD010745, 0x3FAFAD151755, 0x3FAFAD011359] = true := by decide +kernel
theorem ready_FutureRead : may [0x3FAFAD050349, 0x3FAFAD15074D, 0x3FAFAD0D2F51] = true := by decide +kernel
theorem ready_BarrierResult : may [0x183FAFAFAFAF5D, 0x3FAFAFAD0761, 0x83FAFAD13AF65] = true := by decide +kernel
theorem ready_MonitorResult : may [0x3FAFAD0FAF69, 0x3FAFAD010F6D] = true := by decide +kernel
theorem ready_RangeResult : may [0x3FAD0D07AF71, 0x3FAFAFAD1375] = true := by decide +kernel
theorem ready_RecordHeld : may [0x3FAFAD051781, 0x3D0D052D1785] = true := by decide +kernel
theorem ready_QueuesAndRdone : may [0x3FAD11111389, 0x3FAFAD2D078D, 0x3FAFAD0D1391] = true := by decide +kernel
theorem ready_TrapInstructions : may [0x3FAFAFAFAC09, 0x3FAFAFAFAC0D, 0x3FAC0BAFAC11] = true := by decide +kernel
theorem ready_JumpResult : may [0x3FAFAD0FACD1, 0x3FAFAD17ACD9, 0x3FAFAD07ACDD] = true := by decide +kernel
/-- An instruction may issue in a state. -/
def ready (s : State) (i : Instr) : Bool :=
  match i.long?.orElse fun _ => i.expand? with
  | some (op, f) => decide (s.cur = some 0) && (s.ctx? 0).isSome && (match gate s 0 op f i with | none => true | some _ => false)
  | none => false
theorem ready_sound {s : State} {i : Instr} {op : Nat} {f : Fields} (ho : (i.long?.orElse fun _ => i.expand?) = some (op, f)) (h : ready s i = true) : Ready s 0 op f i := by
  simp only [ready, ho, Bool.and_eq_true, decide_eq_true_eq] at h
  exact ready_of_gate h.1.1 h.1.2 (by have := h.2; split at this <;> simp_all)
/-- The short forms may issue. -/
theorem ready_short : ∀ i ∈ [Instr.nopS, .vaddF32S (.v 5) (.v 1) (.v 2), .vmulF32S (.v 5) (.v 1) (.v 2), .vfmaF32S (.v 5) (.v 1) (.v 2), .vmovS (.v 5) (.v 1), .smovS (.s 3) (.s 4),
    .saddI64S (.s 3) (.s 4) (.s 5), .saddI64ImmS (.s 3) (.s 4) 0xFF, .vaddI32S (.v 5) (.v 1) (.v 2), .vandS (.v 5) (.v 1) (.v 2), .ldI32S (.v 5) (.s 4), .stI32S (.s 4) (.v 5),
    .braS 0x8000, .loopS (.s 3) 0xFFFF, .mandS (.v 1) (.v 2) (.v 15), .doneS], ready row i = true := by decide +kernel
theorem row_inv : row.Inv := by constructor <;> decide +kernel
/-- Branches taken and not. -/
theorem witness_BranchResult : ready row (.bmz { a := .v 1, b := .v 3, c := .v 0 }) = true ∧ taken 0x32 { a := .v 1 } (row.ctx 0) = true
    ∧ ready row (.bmz { a := .v 0, b := .v 3, c := .v 0 }) = true ∧ taken 0x32 { a := .v 0 } (row.ctx 0) = false := by decide +kernel
theorem witness_JumpResult : ([0x20000, 0x20002, 0x10000000000000, 0xFFFFFFFFFFFFC].all fun a => ready (rowS [(4, BitVec.ofNat 64 a)]) (.callr { a := .s 4 })
    && decide ((arg ((rowS [(4, BitVec.ofNat 64 a)]).ctx 0) { a := .s 4 } (.s 4)).toNat = a)) = true := by decide +kernel
theorem witness_SpecialRegisters : ready row (.sget { d := .s 5, b := .v 32, c := .v 0 }) = true ∧ sysIndex { d := .s 5, b := .v 32, c := .v 0 } = 0x20
    ∧ ((specials row 0).map (·.1)).contains 0x20 = true ∧ (row.ctx 0).cyclesAt = none ∧ (row.cdie 0).clk = 0
    ∧ ready (rowX fun x => { x with cyclesAt := some 0 }) (.sget { d := .s 5, b := .v 32, c := .v 0 }) = true := by decide +kernel
/-- Outside a handler, with and without a result in flight; inside one, in a block. -/
def outside : State := rowX fun x => { x with handling := false, trapvec := 0x4000 }
def inFlight : State := rowX fun x => { x with handling := false, trapvec := 0x4000, inflight := [{ id := 0, due := 4, writes := [.s 9 1] }], nextId := 1 }
theorem witness_TrapEntry : (outside.ctx 0).handling = false ∧ (outside.ctx 0).inflight = [] ∧ vectorOfCause (outside.ctx 0) 5 = 0x4000 ∧ (inFlight.ctx 0).inflight ≠ []
    ∧ (row.ctx 0).handling = true ∧ (row.block? (row.ctx 0).blk).isSome = true := by decide +kernel
theorem witness_Abort : (row.blocks.map (·.1)).Pairwise (· < ·) := by decide +kernel
theorem witness_TrapInstructions : ready outside (.trap { a := .const 14 }) = true ∧ ready outside (.brk { b := .v 52, c := .v 18 }) = true ∧ (outside.ctx 0).trapvec ≠ 0
    ∧ ready row (.tret {}) = true := by decide +kernel
/-- The verdict of the checks is a trap of this cause. -/
def trapsWith (s : State) (op : Nat) (f : Fields) (i : Instr) (c : Nat) : Bool := match gate s 0 op f i with | some (.trap d _ _) => c == d | _ => false
theorem witness_ChecksBeforeMeaning : trapsWith row 0x10 {} (.sadd {}) 1 = true ∧ trapsWith row 6 { a := .s 4, b := .v 1, c := .v 0 } (.sset { a := .s 4, b := .v 1, c := .v 0 }) 0xC = true
    ∧ trapsWith outside 3 {} (.tret {}) 0xC = true ∧ trapsWith row 0x50 (valu .i32 0 (.latch 0)) (.vaddInt (valu .i32 0 (.latch 0))) 0xB = true
    ∧ trapsWith row 0x50 (valu .i32 0 .pn) (.vaddInt (valu .i32 0 .pn)) 0xA = true ∧ trapsWith (rowS [(4, 5)]) 0xB7 { a := .s 4 } (.trel { a := .s 4 }) 0xE = true
    ∧ trapsWith (rowX fun x => { x with poisonS := [4], poisonAddr := 64 }) 0x10 (alu .i64) (.sadd (alu .i64)) 0xD = true
    ∧ (inFlight.ctx 0).awaits [.s 9] = true := by decide +kernel
/-- A bad loop word, a failed mark, and a latch that another context of the row has still to write. -/
theorem witness_MoreChecks : badWord (rowS [(3, 0x100001)]) 0 0xC0 { mod := .t8, d := .v 0, a := .s 3 } = true ∧ trapsWith (rowS [(3, 0x100001)]) 0xC0 { mod := .t8, d := .v 0, a := .s 3 } (.mloop { mod := .t8, d := .v 0, a := .s 3 }) 1 = true
    ∧ badWord row 0 0xC0 { mod := .t8, d := .v 0, a := .s 3 } = false
    ∧ trapsWith (rowX fun x => { x with marks := [(4, .failed 0xC001 6 0)] }) 0x10 (alu .i64) (.sadd (alu .i64)) 6 = true
    ∧ failedMark row (marksRead ((rowX fun x => { x with marks := [(4, .failed 0xC001 6 0)] }).ctx 0) 0x10 (alu .i64)) = some (6, 0, 0xC001)
    ∧ (row.setCtx 1 { blk := 0, inflight := [{ id := 0, due := 4, writes := [.latch 3 Lanes.zero] }] }).latchAwaits 0 [.latch 3] = true := by decide +kernel
/-- A stall once every check has passed: a seventeenth store; and the flags, with a result in flight that may set them. -/
def stored16 : State := rowX fun x => { x with stores := List.replicate 16 { bytes := [(.side 0, 0x100, 7)], due := 40 } }
theorem witness_StallsAndFlags : (let f : Fields := { mod := .i64, d := .s 4, a := .s 5 }
      stalls stored16 0 0x93 f && (spoiled stored16 0 0x93 f).isNone && !badWord stored16 0 0x93 f && (stored16.ctx 0).awaits (namedRegs (stored16.ctx 0) 0x93 f) == false && (Instr.sst f).wf
        && !stored16.latchAwaits 0 (namedRegs (stored16.ctx 0) 0x93 f) && !flagsWait (stored16.ctx 0) (namedRegs (stored16.ctx 0) 0x93 f)
        && !latchLost (readsOf 0x93 f) (validLatches (stored16.prow 0) 0) && !namesPn 0x93 f && ((slotsOf stored16 0 0x93 f).find? fun e => !stored16.ownsSlot 0 e.1).isNone && decide (stored16.cur = some 0)) = true
    ∧ flagsWait ((rowX fun x => { x with inflight := [{ id := 0, due := 4, writes := [], canFlag := true }] }).ctx 0) [.flags] = true := by decide +kernel
theorem witness_RowControl : ready (rowS [(4, -1)]) (.perf { d := .s 3, a := .s 4 }) = true ∧ ready (rowS [(4, 3)]) (.perf { d := .s 3, a := .s 4 }) = true ∧ ready (rowS [(4, 4)]) (.perf { d := .s 3, a := .s 4 }) = true
    ∧ ready (rowX fun x => { x with stage := .atPoint (some true) }) (.mpoint { d := .s 3 }) = true ∧ (row.grid 0).migration = none
    ∧ ready (row.updGrid 0 fun g => { g with migration := some {} }) (.mpoint { d := .s 3 }) = true
    ∧ ready row (.doneRow {}) = true ∧ (row.ctx 0).inflight = [] ∧ (row.ctx 0).stores = [] ∧ (row.ctx 0).loop = none ∧ (row.ctx 0).bankOps = [] ∧ ready inFlight (.doneRow {}) = true := by decide +kernel
/-- The row's done has issued, with nothing of it in flight or a result; it is asked whether it is over, or looked at for its next instruction. -/
def leavingRow (l : List InFlight) (a : Action) : State := { rowX (fun x => { x with leaving := true, inflight := l }) with agenda := [a] }
theorem witness_Leaving : ([[], [({ id := 0, due := 4, writes := [.s 9 1] } : InFlight)]].all fun l => ((leavingRow l (.leave 0)).ctx? 0).map (fun x => x.leaving && x.inflight == l && x.stores.isEmpty && x.loop.isNone && x.bankOps.isEmpty) == some true) = true
    ∧ (leavingRow [] (.leave 0)).agenda = .leave 0 :: [] ∧ (leavingRow [] (.issue 0)).agenda = .issue 0 :: [] := by decide +kernel
theorem witness_VectorConversions : ready row (.vcvto { mod := .t8, d := .v 6, a := .v 1, b := .s 8, c := .v 2 }) = true
    ∧ ∀ o ∈ vcvtoElems .t8 .f32 0 ((row.ctx 0).active { mod := .t8, d := .v 6, a := .v 1, b := .s 8, c := .v 2 }) (srcs row 0 0x81 { mod := .t8, d := .v 6, a := .v 1, b := .s 8, c := .v 2 }).a, o.out = false := by decide +kernel
/-- Every lane of v1 is above the threshold of s8, whose list starts at a place. -/
def outlying (at_ : Nat) : State := rowX fun x => (x.setV 1 (tab 32 fun l => BitVec.ofNat 32 (0x40000000 + l)) 0xFFFFFFFF#32).setS 8 (BitVec.ofNat 64 (at_ * 2 ^ 32 + 0x3F800000))
def outCount (s : State) : Nat := ((vcvtoElems .t8 .f32 0x3F800000 ((s.ctx 0).active { mod := .t8, d := .v 6, a := .v 1, b := .s 8, c := .v 2 }) (srcs s 0 0x81 { mod := .f32, d := .v 6, a := .v 1, b := .s 8, c := .v 2 }).a).filter (·.out)).length
theorem witness_VectorOutliers : ([0x400, 0x401, 0x1FFFFE].all fun a => ready (outlying a) (.vcvto { mod := .t8, d := .v 6, a := .v 1, b := .s 8, c := .v 2 }) && outCount (outlying a) == 32
      && bitsOf (arg ((outlying a).ctx 0) { b := .s 8 } (.s 8)) 52 32 == a && ((outlying a).blockOf ((outlying a).ctx 0)).spanOn 0 == ⟨0, 0, 0x200000⟩ && ((outlying a).ctx 0).stores.isEmpty
      && ((outlying a).ctx 0).bankOps.isEmpty && !(outlying a).bankHeld 0 0 (bankOf a)) = true := by decide +kernel
/-- A block that also has a scratchpad allocation. -/
def padded : State := row.updBlock (row.ctx 0).blk fun b => { b with scrbase := 0x10000000, scrlim := 0x10010000 }
/-- What the checks of word accesses give: cause, mask and address, or the places. -/
def checked1 (as : List Access) : List Nat := match checkAccesses padded 0 4 4 false as with | .ok ps => ps.map (·.off) | .error e => [e.1, e.2.1.toNat, e.2.2.toNat]
/-- The last bytes of each allocation, and the first past it. -/
theorem witness_LocalAccessChecks : padded.resolve 0 0x1FFFFC 4 = some (.side 0, 0x1FFFFC) ∧ padded.resolve 0 0x1FFFFD 4 = none ∧ padded.resolve 0 0x11FFFFC 4 = some (.side 0, 0x1FFFFC)
    ∧ padded.resolve 0 0x11FFFFD 4 = none ∧ padded.resolve 0 0x1000FFFC 4 = some (.scratch 0, 0xFFFC) ∧ padded.resolve 0 0x1000FFFD 4 = none
    ∧ checked1 [⟨3, 0x1FFFFD⟩, ⟨5, 2⟩] = [4, 8, 0x1FFFFD] ∧ checked1 [⟨3, 0x1FFFFC⟩, ⟨5, 2⟩] = [5, 32, 2] ∧ checked1 [⟨3, 0x1FFFFC⟩, ⟨5, 0⟩] = [0x1FFFFC, 0] := by decide +kernel
/-- An access whose checks pass in places that are clear, and one that fails. -/
def okPlaces (s : State) (as : List Access) (n : Nat) : Bool := match checkAccesses s 0 n n false as with | .ok ps => !loadWait s 0 n ps && !bankWait s 0 n ps | .error _ => false
def ldF : Fields := { mod := .i32, d := .v 5, a := .s 4 }
theorem witness_LoadResult : ready row (.ld ldF) = true ∧ okPlaces row (laneAccesses (row.ctx 0) ldF (.s 4) .zero 0) 4 = true
    ∧ ready (rowS [(4, 0x1FFFFE)]) (.ld ldF) = true ∧ okPlaces (rowS [(4, 0x1FFFFE)]) (laneAccesses ((rowS [(4, 0x1FFFFE)]).ctx 0) ldF (.s 4) .zero 0) 4 = false
    ∧ ready row (.ldb { mod := .i32, d := .v 5, a := .s 4 }) = true ∧ ready row (.sld { mod := .i64, d := .s 5, a := .s 4 }) = true
    ∧ okPlaces row (rowAccess (row.ctx 0) { mod := .i64, d := .s 5, a := .s 4 } (.s 4) .zero 0) 8 = true := by decide +kernel
/-- A word of the same grid through the window, that the read cache holds, and one of the next grid. -/
theorem witness_RemoteLoad : ready (rowS [(4, 0x1000200)]) (.ld ldF) = true ∧ okPlaces (rowS [(4, 0x1000200)]) (laneAccesses ((rowS [(4, 0x1000200)]).ctx 0) ldF (.s 4) .zero 0) 4 = true
    ∧ ready { padded with cur := some 0 } (.ldb { mod := .i32, d := .v 5, a := .s 4 }) = true := by decide +kernel
theorem witness_StoreResult : ready row (.st { mod := .i32, d := .s 4, a := .v 1 }) = true ∧ okPlaces row (laneAccesses (row.ctx 0) { mod := .i32, d := .s 4, a := .v 1 } (.s 4) .zero 0) 4 = true
    ∧ ready (rowS [(4, 2)]) (.sst { mod := .i64, d := .s 4, a := .s 5 }) = true ∧ ready row (.sst { mod := .i64, d := .s 4, a := .s 5 }) = true := by decide +kernel
/-- The spill stack at the top and at the bottom of its memory. -/
theorem witness_StackResult : ready (rowS [(159, 0x200000)]) (.push { a := .s 5 }) = true ∧ onStack (rowS [(159, 0x200000)]) 0 0x1FFFF8 8 8 ∧ ready row (.pop { d := .s 5 }) = true ∧ onStack row 0 0 8 8
    ∧ loadWait row 0 8 [stackAt 0 0] = false ∧ bankWait (rowS [(159, 0x200000)]) 0 8 [stackAt 0 0x1FFFF8] = false ∧ ready (rowS [(159, 128)]) (.vspill { a := .v 5 }) = true ∧ onStack (rowS [(159, 128)]) 0 0 128 4 ∧ ready (rowS [(159, 0x1FFF80)]) (.vfill { d := .v 5 }) = true
    ∧ onStack (rowS [(159, 0x1FFF80)]) 0 0x1FFF80 128 4 ∧ loadWait (rowS [(159, 0x1FFF80)]) 0 128 [stackAt 0 0x1FFF80] = false := by unfold onStack; decide +kernel
/-- A store on its way, and one that is home. -/
def aStore : Store := { bytes := [(.side 0, 0x100, 7), (.side 1, 0x101, 8)], due := 40 }
def storing1 : State := (rowX fun x => { x with stores := [aStore] }).updGrid 0 fun g => { g with clk := 8 }
def stored1 : State := rowX fun x => { x with stores := [{ bytes := [(.side 0, 0x100, 7)], due := 0, home := true }] }
/-- Where the checks of the stack and of an atomic fail: below the memory, and out of line. -/
theorem witness_StackFails : ready (rowS [(159, 0)]) (.push { a := .s 5 }) = true ∧ stackCause (rowS [(159, 0)]) 0 (((rowS [(159, 0)]).ctx 0).sreg 159 - 8) 8 8 = some 4 ∧ ready (rowS [(159, 4)]) (.pop { d := .s 5 }) = true
    ∧ stackCause (rowS [(159, 4)]) 0 (((rowS [(159, 4)]).ctx 0).sreg 159) 8 8 = some 5 ∧ ready (rowS [(159, 0)]) (.vspill { a := .v 5 }) = true ∧ stackCause (rowS [(159, 0)]) 0 (((rowS [(159, 0)]).ctx 0).sreg 159 - 128) 128 4 = some 4
    ∧ ready (rowS [(159, 0x1FFF81)]) (.vfill { d := .v 5 }) = true ∧ stackCause (rowS [(159, 0x1FFF82)]) 0 0x1FFF82 128 4 = some 4 ∧ stackCause (rowS [(159, 2)]) 0 2 128 4 = some 5 := by decide +kernel
theorem witness_FenceResult : ready storing1 (.fence { fn := 1 }) = true ∧ (storing1.ctx 0).stores ≠ [] ∧ ready row (.fence { fn := 1 }) = true ∧ ready row (.fence { fn := 3 }) = true
    ∧ ready inFlight (.fence { fn := 2 }) = true ∧ (inFlight.ctx 0).inflight ≠ [] := by decide +kernel
theorem witness_StoreComesHome : (storing1.ctx 0).stores = [] ++ aStore :: [] ∧ aStore.bytes.filter (storing1.homeNow 0 [] aStore) = [(.side 0, 0x100, 7)]
    ∧ (stored1.ctx 0).stores.map (fun q => q.acked (stored1.now 0)) = [true] ∧ (stored1.ctx? 0).isSome = true := by decide +kernel
/-- The checks pass for so many lanes and nothing holds the atomic back. -/
def atomOk (n : Nat) (r : Bool) (as : List Access) (k : Nat) : Bool := match checkAccesses row 0 n n r as with | .ok ps => atomReady row 0 n ps && decide (ps.length = k) | .error _ => false
def satomF : Fields := { mod := .i64, d := .s 5, a := .s 4, b := .s 6 }
def atomF : Fields := { mod := .i32, d := .v 5, a := .s 4, b := .const 0 }
theorem witness_AtomicResult : ready row (.atom atomF) = true ∧ atomOk 4 false (laneAccesses (row.ctx 0) atomF (.s 4) .zero 0) 32 = true
    ∧ ready row (.satom satomF) = true ∧ atomOk 8 true (rowAccess (row.ctx 0) satomF (.s 4) .zero 0) 1 = true := by decide +kernel
/-- All its lanes meet on one word. -/
theorem witness_AtomicsMeet : (match checkAccesses row 0 4 4 false (laneAccesses (row.ctx 0) atomF (.s 4) .zero 0) with
    | .ok ps => decide (ps.Pairwise fun p q => placeKey p.sp p.off = placeKey q.sp q.off) | .error _ => false) = true := by decide +kernel
theorem witness_AtomicFails : ([(0x200000, 4), (2, 5)].all fun e => ready (rowS [(4, e.1)]) (.atom atomF) && ready (rowS [(4, e.1)]) (.satom satomF) && ((rowS [(4, e.1)]).ctx 0).stores.isEmpty
      && (match checkAccesses (rowS [(4, e.1)]) 0 4 4 false (laneAccesses ((rowS [(4, e.1)]).ctx 0) atomF (.s 4) .zero 0) with | .error c => c.1 == e.2 | .ok _ => false)
      && (match checkAccesses (rowS [(4, e.1)]) 0 8 8 true (rowAccess ((rowS [(4, e.1)]).ctx 0) satomF (.s 4) .zero 0) with | .error c => c.1 == e.2 | .ok _ => false)) = true := by decide +kernel
/-- The row holds banks 0 and 1, and then another context of its grid holds bank 1. -/
def banked : State := (rowS [(7, 0x200404), (9, 0x100), (10, 0x200), (11, 0x0000001000000400)]).updCtx 0 fun y => { y with banks := 3 }
def rival : State := banked.setCtx 4 { blk := 0, banks := 2 }
theorem witness_BankResult : ready banked (.bkmode { a := .s 7 }) = true ∧ ready (rival.updCtx 0 fun x => (x.setS 7 2#64)) (.bkmode { a := .s 7 }) = true
    ∧ (rival.ctxs.any fun e => e.1 != 0 && gridOf e.1 == 0 && e.2.banks &&& (2#64).setWidth 32 != 0) = true
    ∧ ready (banked.updCtx 0 fun x => { x with stage := .gotMask 0 }) (.bkmode { a := .s 7 }) = true ∧ ready banked (.bkmac { mod := .f16, a := .s 7 }) = true ∧ bankStoresHome banked 0 3 = true ∧ ready banked (.bkget { mod := .f32, d := .v 8, a := .s 9 }) = true
    ∧ (banked.ctx 0).banks.getLsbD 1 = true ∧ (banked.ctx 0).banks.getLsbD 2 = false ∧ ready banked (.bkget { mod := .f32, d := .v 8, a := .s 10 }) = true
    ∧ ready banked (.bkscan { mod := .i32, d := .s 5, a := .s 4, b := .s 11 }) = true ∧ bitsOf ((banked.ctx 0).sreg 11) 47 32 = 16 := by decide +kernel
/-- A bkmac of one line inside the block's memory, and one that no part of it holds; a bkscan of no held bank. -/
theorem witness_BankLines : ready (banked.updCtx 0 fun x => x.setS 7 0x100000#64) (.bkmac { mod := .f16, a := .s 7 }) = true ∧ bitsOf 0x100000#64 31 20 = 1
    ∧ ((banked.blockOf (banked.ctx 0)).spanOn 0) = ⟨0, 0, 0x200000⟩
    ∧ ready ((banked.updBlock 0 fun b => { b with spans := [⟨0, 0x800, 0x1000⟩] }).updCtx 0 fun x => x.setS 7 0x100000#64) (.bkmac { mod := .f16, a := .s 7 }) = true
    ∧ bankStoresHome banked 0 (banksAt [{ lane := 0, sp := .side 0, off := 0x200 }]) = true ∧ bankWait banked 0 1 [{ lane := 0, sp := .side 0, off := 0x200 }] = false := by decide +kernel
/-- A bkscan of 16 words whose word has a bit too many, whose source or list lies at or past the end of the block's memory, and whose source or list is out of line. -/
def scanning (a b : Word64) : State := rowS [(4, a), (11, b)]
theorem witness_BkscanFails : ([(0, 0x0001001000000400), (0x1FFFFC, 0x0000001000000400), (0x200000, 0x0000001000000400), (0, 0x00000010001FFFFE), (2, 0x0000001000000400), (0, 0x0000001000000401)].all fun e =>
      ready (scanning e.1 e.2) (.bkscan { mod := .i32, d := .s 5, a := .s 4, b := .s 11 })) = true ∧ bitsOf 0x0001001000000400#64 63 48 = 1 ∧ bitsOf 0x0000001000000400#64 63 48 = 0 ∧ (row.blockOf (row.ctx 0)).spanOn 0 = ⟨0, 0, 0x200000⟩ := by decide +kernel
/-- Copy shapes: eight registers from s20. An empty one passes; one with a reserved bit set, and one whose local side ends past its allocation, do not. -/
def shaped (l : List (Nat × Word64)) : State := rowS ([(22, 0x10000010000040)] ++ l)
def cpyF : Fields := { d := .s 10, a := .s 20 }
theorem witness_CopyAccepted : ready (shaped []) (.cpy cpyF) = true ∧ shapeFault (shaped []) 0 cpyF { shapeOp (shaped []) 0 cpyF .cpyLd with ty := .i8, layB := false } false false 0 = none
    ∧ (shapeFault (shaped [(20, 0x10000000000000)]) 0 cpyF { shapeOp (shaped [(20, 0x10000000000000)]) 0 cpyF .cpyLd with ty := .i8, layB := false } false false 0).isSome = true
    ∧ (shapeFault (shaped [(21, 0x1FFFFF)]) 0 cpyF { shapeOp (shaped [(21, 0x1FFFFF)]) 0 cpyF .cpyLd with ty := .i8, layB := false } false false 0) = some (4, 0x200000)
    ∧ ready (shaped []) (.gatom { mod := .i32, d := .s 10, a := .s 4, b := .s 5 }) = true ∧ ready (rowS [(4, 2)]) (.gatom { mod := .i32, d := .s 10, a := .s 4, b := .s 5 }) = true
    ∧ ready (rowS [(4, 0x10000000000000)]) (.gatom { mod := .i32, d := .s 10, a := .s 4, b := .s 5 }) = true := by decide +kernel
/-- Every slot taken. -/
def slotless : State := row.updGrid 0 fun g => { g with tiles := (List.range 32).map fun n => (n, { owner := some 9 }), seen := (List.range 32).map fun n => (n, { owner := some 9 }) }
theorem witness_TileSlots : ready row (.tclaim { d := .s 5 }) = true ∧ (∀ j, j < 2 → (row.tile 0 j).owner ≠ none) ∧ (row.tile 0 2).owner = none
    ∧ ready slotless (.tclaim { d := .s 5 }) = true ∧ (∀ j, j < 32 → (slotless.tile 0 j).owner ≠ none) ∧ ready row (.trel { a := .s 0 }) = true
    ∧ ready (rowS [(4, 31)]) (.tstat { d := .s 5, a := .s 4 }) = true ∧ ready (rowS [(4, 32)]) (.tstat { d := .s 5, a := .s 4 }) = true := by decide +kernel
theorem witness_MatrixStarted : ready row (.mloop { mod := .t8, d := .v 0, a := .s 3 }) = true ∧ ready row (.mloop { mod := .t8, d := .v 0, a := .s 3, b := .s 6 }) = true
    ∧ ready row (.mstep { mod := .t8, d := .v 15, a := .s 11 }) = true := by decide +kernel
theorem witness_AccumulatorMoves : ready row (.azero { fn := 15, d := .v 0 }) = true ∧ ready row (.amov { fn := 16, mod := .f32, d := .v 15, a := .v 63 }) = true
    ∧ ready row (.ast { mod := .f32, d := .v 0, a := .s 4, b := .s 6 }) = true ∧ ready row (.bpass { a := .s 4 }) = true ∧ (row.prow 0).baton = some 0 ∧ (row.ctx 0).loop = none
    ∧ ready (row.updRow 0 fun r => { r with baton := some 1 }) (.bpass { a := .s 4 }) = true := by decide +kernel
/-- A future of a kind in a state, named by s4; its entry is number 3 of cluster 0. -/
def futured (kind state : Nat) : State := (rowS [(4, 0xC001)]).updCluster 0 fun c => { c with futures := [(3, { kind := kind, state := state, owner := some 0 })] }
theorem witness_FutureMadeAndSettled : ready row (.fnew { d := .s 5 }) = true ∧ (row.allocFuture 0 0 (some 0) 4).isSome = true ∧ ready row (.fmov { d := .s 5, a := .s 4 }) = true
    ∧ (∀ k ∈ [0, 1, 2], ∀ st ∈ [1, 2], ready (futured k st) (.fset { d := .s 5, a := .s 4, b := .s 6 }) = true ∧ ready (futured k st) (.fcancel { d := .s 5, a := .s 4 }) = true
        ∧ ((futured k st).future? (handle ((futured k st).ctx 0) { a := .s 4 })).map (fun e => (e.kind, e.state)) = some (k, st))
    ∧ ready row (.fset { d := .s 5, a := .s 4, b := .s 6 }) = true ∧ row.future? (handle (row.ctx 0) { a := .s 4 }) = none := by decide +kernel
/-- Another row waits in its fwait on the same future. -/
def waitedOn : State := (futured 0 1).setCtx 4 { blk := 0, stage := .fwaiting 0xC001 }
theorem witness_WaitedOn : ready waitedOn (.fset { d := .s 5, a := .s 4, b := .s 6 }) = true ∧ ready waitedOn (.fcancel { d := .s 5, a := .s 4 }) = true ∧ (waitedOn.ctx 4).awaitsFuture 0xC001 = true
    ∧ handle (waitedOn.ctx 0) { a := .s 4 } = 0xC001 := by decide +kernel
theorem witness_FutureRead : (∀ i ∈ [Instr.fget { d := .s 6, a := .s 4 }, .ftest { d := .s 6, a := .s 4 }, .fwait { d := .s 6, a := .s 4 }], ready (futured 0 1) i = true ∧ ready (futured 0 2) i = true ∧ ready row i = true)
    ∧ statusWord (futured 0 1) 0 0xC001 = 0 ∧ statusWord (futured 0 2) 0 0xC001 = 1 ∧ statusWord row 0 0xC001 = 4 ∧ ownHeld (futured 0 1) 0 0xC001 = false
    ∧ ownHeld { futured 2 1 with journal := [{ task := 0, blk := 0, serial := 0, row := 0, emit := 0, r := {}, acc := none, slot := 0, fut := some 0xC001 }] } 0 0xC001 = true := by decide +kernel
/-- The block's one row arrives at a barrier whose phase has moved past token 0, and at one whose phase has not. -/
def barred (phase : Word32) (f : Ctx → Ctx) : State := (rowX f).updBlock 0 fun b => { b with barriers := (List.range 8).map fun k => (barrierKey none k, { phase := phase }) }
theorem witness_BarrierResult : (row.block? (row.ctx 0).blk).isSome = true ∧ ready row (.arrive { d := .s 5 }) = true ∧ ready (barred 1 id) (.awaitBar { a := .s 5 }) = true
    ∧ (theBarrier (barred 1 id) ((barred 1 id).ctx 0) { a := .s 5 }).phase = 1 ∧ ready (barred 0 id) (.awaitBar { a := .s 5 }) = true ∧ ready row (.bar {}) = true
    ∧ ready (barred 1 fun x => { x with stage := .arrived 0 }) (.bar {}) = true ∧ (row.participants (row.blockOf (row.ctx 0)) none) = [0] ∧ (row.ctx 0).k = 0
    ∧ ready storing1 (.arrive { d := .s 5 }) = true := by decide +kernel
/-- A region that the row may watch, and a page for it. -/
def watched : State := (rowS [(4, 0x1000)]).updBlock 0 fun b => { b with hdr := { b.hdr with nreg := 1, regions := [{ base := 0x1000, extent := 64, mode := 4, consumer := 0 }] } }
theorem witness_MonitorResult : ready row (.mon { a := .s 4 }) = true ∧ (row.resolve 0 0x200 1).isSome = true ∧ ready (rowS [(4, 0x200000)]) (.mon { a := .s 4 }) = true ∧ row.resolve 0 0x200000 1 = none
    ∧ ready watched (.mon { fn := 1, a := .s 4 }) = true ∧ ready (rowS [(4, 0x10000000000000)]) (.mon { fn := 1, a := .s 4 }) = true ∧ ready row (.mon { fn := 1, a := .s 4 }) = true
    ∧ ready (rowX fun x => { x with wake := some 0 }) (.mwait { d := .s 5, a := .s 0 }) = true ∧ ready row (.mwait { d := .s 5, a := .s 0 }) = true
    ∧ ([Stage.arming 0 (some (.side 0)) 8, .arming 1 none 8].all fun st => ready (rowX fun x => { x with stage := st }) (.mon { a := .s 4 })) = true
    ∧ ready (watched.updCtx 0 fun x => { x with stage := .walking 9 }) (.mon { fn := 1, a := .s 4 }) = true
    ∧ ready (rowX fun x => { x with stage := .waitingSince 0 0 }) (.mwait { d := .s 5, a := .s 4 }) = true
    ∧ ready ((rowX fun x => { x with stage := .waitingSince 0 0 }).updGrid 0 fun g => { g with clk := 0x200 }) (.mwait { d := .s 5, a := .s 4 }) = true := by decide +kernel
/-- A mon.g on its way to a line: its request comes home, to memory that works, has a retired page or lies in a failed stack, or has no home; it went with a lost link. -/
def arms (line : Nat) (badP badS : List Nat) : State := { (rowX fun x => { x with stage := .arming 0 none line }) with badPages := badP, badStacks := badS }
def lostMon (clk : Nat) : State := (rowX fun x => { x with stage := .lost 9 64 }).updGrid 0 fun g => { g with clk := clk }
/-- The watched address while the table is rewritten: not translated yet, its walk held or not; and translated, to an interleaved PA. -/
def watchedAgain (root : Nat) : State := { watched with itbusy := true, funcs := [(0, { ptroot := root })] }
def watchedFar (busy : Bool) : State := { watched with itbusy := busy, ranges := [(0, { base := 0x1000, lim := 0x1000, off := 0x100000000000, attr := 0xF })] }
theorem witness_MonitorHome : ([arms 64 [] [], arms 64 [1] [], arms 64 [] [0], arms (2 ^ 42) [] [], lostMon 8, lostMon 9].all fun s => ready s (.mon { fn := 1, a := .s 4 })) = true
    ∧ (row.homeOf (64 * 64) = some 0x1000 ∧ row.homeOf (64 * 2 ^ 42) = none) ∧ (arms 64 [1] []).memBad 0x1000 = true ∧ (arms 64 [1] []).stackBad 0x1000 = false ∧ (arms 64 [] [0]).stackBad 0x1000 = true ∧ (arms 64 [] []).memBad 0x1000 = false
    ∧ (lostMon 8).now 0 < 9 ∧ ¬ (lostMon 9).now 0 < 9 ∧ ([watchedAgain (2 ^ 44 + 1), watchedAgain 1, watchedFar true, watchedFar false].all fun s => ready s (.mon { fn := 1, a := .s 4 })) = true
    ∧ (watchedAgain (2 ^ 44 + 1)).translate 0 0 0x1000 = .miss ∧ (watchedAgain (2 ^ 44 + 1)).walkHeld 0 0x1000 = true ∧ (watchedAgain 1).walkHeld 0 0x1000 = false
    ∧ (watchedFar true).translate 0 0 0x1000 = .ok 0 0x100000000000 true true true ∧ (watchedFar true).heldPa 0x100000000000 = true ∧ (watchedFar false).heldPa 0x100000000000 = false
    ∧ ((watchedFar true).homeOf 0x100000000000).isSome = true := by decide +kernel
/-- Blocks with a range, with a steal under way, and with an answer for the row. -/
def ranged (f : Block → Block) (g : Ctx → Ctx) : State := (rowX g).updBlock 0 f
theorem witness_RangeResult : ([Stage.fresh, .asked 0, .answered 5].all fun st => ready (rowX fun x => { x with stage := st }) (.rinit { a := .s 0, b := .s 1 }) && ready (rowX fun x => { x with stage := st }) (.rtake { d := .s 5 })) = true
    ∧ ready (ranged (fun b => { b with requests := [{ due := 4, k := 0, cid := 0 }] }) fun x => { x with stage := .asked 0 }) (.rtake { d := .s 5 }) = true
    ∧ ready (ranged (fun b => { b with takers := [0] }) fun x => { x with stage := .asked 0 }) (.rtake { d := .s 5 }) = true
    ∧ ((row.block? 0).map fun b => (b.asked, b.stealing, b.lo, b.hi)) = some ([], none, 0, 0) ∧ ((ranged (fun b => { b with stealing := some (1, []), lo := 6, hi := 7, hasRange := true }) id).block? 0).map (fun b => (b.stealing, decide (b.lo < b.hi))) = some (some (1, []), true) := by decide +kernel
/-- Block 1 asks block 0, whose range is of four indices or of one, for work of its one row. -/
def thieving (lo : Nat) : State :=
  { (ranged (fun b => { b with lo := lo, hi := 4, hasRange := true, asked := [1] }) id).setCtx 4 { blk := 1, parked := some .range } with
      blocks := [(0, { row.blockOf (row.ctx 0) with lo := lo, hi := 4, hasRange := true, asked := [1] }), (1, { row.blockOf (row.ctx 0) with blkid := 1, stealing := some (0, []), takers := [4] })] }
theorem witness_Thieves : ([0, 3].all fun lo => ((thieving lo).block? 0).map (fun b => (b.lo, b.hi, b.asked)) == some (lo, 4, [1]) && ((thieving lo).block? 1).map (fun b => (b.stealing, b.takers)) == some (some (0, []), [4])
      && ((thieving lo).ctx? 4).isSome) = true ∧ (match (thieving 3).block? 0, (thieving 3).block? 1 with | some b, some y => ((thieving 3).nextVictim 1 y ((thieving 3).ringDist y b)).isNone | _, _ => false) = true
    ∧ (row.block? 0).map (fun b => (b.stealing, b.takers, b.asked)) = some (none, [], []) := by decide +kernel
/-- A slot whose image has a handler node, of two records and a timer of ten cycles. -/
def image : Mem := [(6, 2, 1), (12, 4, 64), (98, 1, 2), (102, 2, 2), (104, 4, 10), (8, 4, 192)].foldl (fun (m : Mem) e => Mem.writeNum m e.1 e.2.1 e.2.2) []
def slotted : State := row.setSlot 0 { code := 0, image := image }
theorem witness_RecordHeld : ready slotted (.spawn { d := .s 10, a := .s 20, b := .s 0 }) = true ∧ (slotted.handlerNode? 0 0).isSome = true ∧ ready row (.spawn { d := .s 10, a := .s 20, b := .s 0 }) = true
    ∧ row.handlerNode? 0 0 = none ∧ ready row (.invoke { d := .s 10, a := .s 20, b := .s 4, c := .s 5 }) = true ∧ (row.ctx 0).emitted = 0
    ∧ ready (rowX fun x => { x with emitted := 4096 }) (.invoke { d := .s 10, a := .s 20, b := .s 4, c := .s 5 }) = true := by decide +kernel
/-- An accelerator word out of its layout. -/
theorem witness_RecordFails : ready (rowS [(4, 0x8000)]) (.invoke { d := .s 10, a := .s 20, b := .s 4, c := .s 5 }) = true ∧ ¬ (bitsOf (arg ((rowS [(4, 0x8000)]).ctx 0) { b := .s 4 } (.s 4)) 15 14 = 0)
    ∧ ready (rowX fun x => { x with emitted := 4096 }) (.invoke { d := .s 10, a := .s 20, b := .s 4, c := .s 5 }) = true ∧ row.journal = [] := by decide +kernel
/-- A live queue 1 of the row's function and one of another. -/
def queued (fn : Nat) : State := { rowS [(4, 0x100007)] with queues := [(1, { gen := 7, fn := fn, slot := 0, node := 0, spill := false, cap := 4, pages := 0, maxPrio := 11, home := 0 })] }
theorem witness_QueuesAndRdone : ready (rowS [(4, 0x20000000)]) (.qnew { d := .s 5, a := .s 4, b := .s 6 }) = true ∧ ready (rowS [(4, 0xC000000)]) (.qnew { d := .s 5, a := .s 4, b := .s 6 }) = true
    ∧ (∀ j q, Tables.get? row.queues j = some q → q.gen < 2 ^ 20) ∧ ready (queued 0) (.qdel { d := .s 5, a := .s 4 }) = true ∧ ready (queued 1) (.qdel { d := .s 5, a := .s 4 }) = true
    ∧ ready row (.qdel { d := .s 5, a := .s 4 }) = true ∧ ready watched (.rdone { d := .s 12, a := .s 0 }) = true ∧ watched.futureFree 0 = true
    ∧ ready row (.rdone { nowb := true, d := .s 5, a := .s 4 }) = true := by
  refine ⟨by decide +kernel, by decide +kernel, ?_, by decide +kernel, by decide +kernel, by decide +kernel, by decide +kernel, by decide +kernel, by decide +kernel⟩
  intro j q h; cases h
/-- A region the row may write, that it has already closed, with its flush under way or over. -/
def closing (done : Bool) : State :=
  { watched.updBlock 0 fun b => { b with hdr := { b.hdr with regions := [{ base := 0x1000, extent := 64, mode := 2 }] } } with flushes := [{ blk := 0, reg := 0, cid := 0, waitStores := 0, ops := [], done := done }] }
theorem witness_RdoneAgain : ([true, false].all fun d => ready (closing d) (.rdone { d := .s 12, a := .s 0 }) && (closing d).futureFree 0
      && ((closing d).flushes.find? fun w => w.blk == 0 && w.reg == 0).map (·.done) == some d) = true
    ∧ (((closing true).blockOf ((closing true).ctx 0)).hdr.regions.getD 0 {}).isWrite = true ∧ ready (rowS [(4, 0xC000000)]) (.qnew { d := .s 5, a := .s 4, b := .s 6 }) = true := by decide +kernel

/-! ### What the statements about events assume -/
theorem witness_StepRunsDecoded : let s := State.reset.withFetchWord 64 0x00003FAFAFAFAC1D
    s.agenda = [.issue 0] ∧ (s.ctx? 0).isSome = true ∧ resting (s.ctx 0) (s.now 0) = false ∧ ((s.ctx 0).wrapped = false ∧ (s.ctx 0).going = none) ∧ (s.prow 0).buf = none ∧ (s.ctx 0).icinvNext = false
    ∧ cachedBytes (s.grid 0) (s.blockOf (s.ctx 0)).fn (s.ctx 0).pc.toNat 8 = .ok (leBytes 8 0x00003FAFAFAFAC1D)
    ∧ (match (decodeBytes (leBytes 8 0x00003FAFAFAFAC1D)).1 with | .ok i => i == .yield {} | .error _ => false) = true := by
  refine ⟨?_, ?_, ?_, ?_, ?_, ?_, ?_, ?_⟩ <;> first | rfl | decide +kernel
/-- The row whose turn it is has gone past bit 51, or waits in a bar that it has issued. -/
theorem witness_StepGoesOn : ([fun (x : Ctx) => { x with wrapped := true }, fun x => { x with stage := .arrived 0, going := some (.bar {}) }].all fun f =>
      let s : State := { rowX f with agenda := [.issue 0] }
      (s.ctx? 0).isSome && !resting (s.ctx 0) (s.now 0) && ((s.ctx 0).wrapped && (s.ctx 0).going.isNone || (s.ctx 0).going == some (.bar {}))) = true := by decide +kernel
theorem witness_StepTrapsOnNoInstruction : let s := ({ State.reset.withFetchWord 64 3 with agenda := [] }).tendBuffer 0
    (match fetchInstr s 0 with | .bytes bs => (match (decodeBytes bs).1 with | .ok _ => false | .error e => decide (e = .reservedForm)) | _ => false) = true := by decide +kernel
theorem witness_DecodeEncode : (Instr.yield {}).program = true ∧ (Instr.yield {}).wf = true := by decide +kernel
theorem witness_NothingElseChanges : (Instr.yield {}).program = true ∧ writesAtIssue (.yield {}) = false ∧ (match exec (.yield {}) row with | .next _ => true | _ => false) = true ∧ row.cur ≠ some 4 := by decide +kernel
theorem witness_InvKept : State.reset.Inv := by constructor <;> decide +kernel

/-- A window that ends where the scratchpad does fits, and one that reaches a unit past it, or shares one with another function, does not. -/
def windowed : State := { State.reset with funcs := [(0, { scrBase := 0, scrCount := 1535 }), (1, { scrBase := 1535, scrCount := 1 })] }
theorem windows_fit : ∀ w, w < 17 → w ≠ 2 → ¬ meets 1535 0 (windowed.func w).scrBase (windowed.func w).scrCount := by rintro w - - ⟨x, h⟩; omega
def rewriting : State := { State.reset with itbusy := true }
theorem witness_ManagementAndPower : State.reset.dsplitLocked = false ∧ ({ State.reset with dsplitLocked := true } : State).dsplitLocked = true ∧ 1535 + 0 ≤ unitsOf windowed.dsplit
    ∧ meets 1535 1 (windowed.func 1).scrBase (windowed.func 1).scrCount ∧ ¬ (1535 + 2 ≤ unitsOf windowed.dsplit) ∧ rewriting.grids = [] ∧ rewriting.itbusy = true ∧ evenTable (stagedAt rewriting) = true :=
  ⟨rfl, rfl, by decide +kernel, ⟨1535, by decide +kernel⟩, by decide +kernel, rfl, rfl, by decide +kernel⟩
/-- A rewrite that holds one write-back, to an interleaved PA. -/
def holding : State := { rewriting with heldBacks := [(0, 2 ^ 44, [7])] }
theorem witness_Rewrite : holding.Inv ∧ holding.itbusy = true ∧ ((holding.homeOf (2 ^ 44)).map holding.memBad) = some false ∧ ((holding.homeOf (2 ^ 44)).map ({ holding with badPages := [0] } : State).memBad) = some true ∧ holding.heldPa (2 ^ 44) = true ∧ holding.heldPa 0 = false := by
  refine ⟨?_, ?_⟩
  · constructor <;> decide +kernel
  · decide +kernel
theorem witness_RegistersAndAttestation : State.reset.recovery = false ∧ (State.reset.hostWins[0]?).isSome = true ∧ (State.reset.hostWins[1]?).isSome = true := by decide +kernel
theorem witness_OutsideAccess : State.reset.Inv ∧ State.reset.recovery = false ∧ ({ State.reset with recovery := true } : State).recovery = true ∧ State.reset.homeOf 0 = some 0 ∧ State.reset.homeOf (2 ^ 48) = none
    ∧ (State.reset.homeOf 0x100000000000).isSome = true ∧ (State.reset.homeOf 0x900000000000).isSome = true ∧ 0 % 64 + [(1 : Byte)].length ≤ 64 := ⟨witness_InvKept, by decide +kernel⟩
theorem witness_BadPage : let s : State := { State.reset with badPages := [0] }
    s.paBad 0 1 = true ∧ s.heldPa 0 = false ∧ State.reset.paBad 0 1 = false ∧ s.recovery = false := by decide +kernel
/-- An image of one node with a seed, of no fault, in slot 0 of function 0. -/
def seeded : Mem := [(0, 4, 0x48474C42), (4, 2, 1), (6, 2, 1), (8, 4, 256), (12, 4, 64), (64, 4, 0x10000), (88, 2, 1), (90, 2, 1), (102, 2, 1), (140, 4, 192), (144, 4, 1)].foldl
  (fun (m : Mem) e => Mem.writeNum m e.1 e.2.1 e.2.2) []
/-- Slot 0 holds that image and slot 1 a broken one; slot 2 waits for its commit. -/
def loaded : State := { State.reset with
  slots := [(0, { code := 0, image := seeded }), (1, { code := 0, image := [] })]
  funcs := [(0, { slotBase := 0, slotCount := 4096, upwin := seeded }), (1, { slotBase := 16, slotCount := 16 }), (2, { commit := some 2, upwin := seeded })] }
theorem slots_fit : ∀ w, w < 16 → w ≠ 1 → ¬ meets 4095 1 (loaded.func (1 + w)).slotBase (loaded.func (1 + w)).slotCount := by
  have h : ∀ w, w < 16 → w ≠ 1 → (loaded.func (1 + w)).slotBase + (loaded.func (1 + w)).slotCount < 4095 := by decide +kernel
  rintro w hw hn ⟨x, hx⟩; have := h w hw hn; omega
theorem witness_UploadAndKick : loaded.recovery = false ∧ 4095 + 1 ≤ 4096 ∧ ¬ (4095 + 2 ≤ 4096) ∧ meets 31 1 (loaded.func 1).slotBase (loaded.func 1).slotCount ∧ (loaded.func 0).commit = none
    ∧ (0x1FFF#64).getLsbD 12 = true ∧ (0x1FFF#64).toNat % 4096 < (loaded.func 0).slotCount ∧ (loaded.func 2).commit = some 2 ∧ loaded.replays = [] ∧ Image.check ((loaded.func 2).upwin.slice 0 256) = none
    ∧ Image.check (loaded.slot 0).image = none ∧ startsAtOnce (loaded.slot 0).image 0 = true ∧ (Image.check (loaded.slot 1).image).isSome = true ∧ (loaded.slot 3).code ≠ 0 :=
  ⟨rfl, by decide, by decide, ⟨31, by decide +kernel⟩, by decide +kernel⟩
theorem witness_ResetsAndFailures : row.recovery = false ∧ (∀ d, (row.cdie d).dcache = []) ∧ (row.tasks.any fun e => e.2.active && !e.2.finished && e.2.dies.contains 0) = true :=
  ⟨by decide +kernel, fun d => by rfl, by decide +kernel⟩

theorem witness_RestartLost : (({ row with lostTasks := [0] } : State).task? 0).map (·.finished) = some false := by decide +kernel

/-! Records, bins and queues. -/
def binRec (a : Byte) : BinRec := { r := { args := [a] }, slot := 0 }
/-- A record on its way to a class of so many others, of a node of two with a timer of ten cycles. -/
def arriving (n : Nat) : State := { slotted with mdies := [(0, { clk := 10, inserts := [binRec 9], bins := [{ slot := 0, node := 0, prio := 0, recs := List.replicate n (binRec 1), timer := some 0 }] })] }
def bigQueue : Queue := { gen := 1, fn := 0, slot := 0, node := 0, spill := false, cap := 2 ^ 19, pages := 0, maxPrio := 11, home := 0 }
def spillQueue : Queue := { bigQueue with spill := true, cap := 1, pages := 1, recs := [{ args := [3] }] }
def queueing (q : Queue) : State := { slotted with queues := [(1, q)] }
/-- The 64 bytes of a record for queue 1 of generation 1 and node 0 (R35). -/
def recordWord : BitVec 512 := 0x100001#512
theorem witness_RecordsAndQueues : ((arriving 0).mdie 0).inserts = [binRec 9] ∧ ((arriving 0).binNode (binRec 9)).handler = true ∧ ((arriving 0).binNode (binRec 9)).ccount = 2 ∧ ((arriving 0).binNode (binRec 9)).timer = 10
    ∧ (classRecs ((arriving 0).mdie 0) 0 0 0 none).length = 0 ∧ (classRecs ((arriving 1).mdie 0) 0 0 0 none).length = 1 ∧ (arriving 1).mayForm 0 = true
    ∧ (arriving 1).dueBin = some (0, { slot := 0, node := 0, prio := 0, recs := [binRec 1], timer := some 0 }) ∧ 0 + ((arriving 1).binNode (binRec 1)).timer ≤ ((arriving 1).mdie 0).clk := by decide +kernel
/-- A new image comes into the slot of the record on its way, which keeps the header that it was accepted under (log entry 114). -/
def reloaded : State := { arriving 1 with funcs := [(2, { commit := some 0, upwin := seeded })] }
theorem test_upload_keeps_accepted : (match exec (.uploadCopyValidate 2) reloaded with
    | .next t => ((t.mdie 0).inserts.map fun r => (t.binNode r).ccount) == [2] && ((t.mdie 0).inserts.map t.binNode) == ((reloaded.mdie 0).inserts.map reloaded.binNode) && (t.slot 0).image != image
    | _ => false) = true ∧ (reloaded.func 2).commit = some 0 ∧ reloaded.replays = [] := by decide +kernel
theorem witness_RecordArrival : arrivalStatus (queueing spillQueue) recordWord.toNat = (0, false) ∧ arrivalStatus (queueing { spillQueue with spill := false }) recordWord.toNat = (1, false)
    ∧ arrivalStatus (queueing { spillQueue with live := false }) recordWord.toNat = (2, false) ∧ arrivalStatus (queueing { spillQueue with node := 1 }) recordWord.toNat = (3, false)
    ∧ arrivalStatus (queueing spillQueue) (recordWord ||| 0xC000000000000#512).toNat = (4, false)
    ∧ arrivalStatus { queueing spillQueue with retained := [{ source := 0, seq := 0, status := 3, at_ := 0, m := 0 }] } recordWord.toNat = (3, true) := by decide +kernel
def crowded : State := { slotted with queues := [(1, bigQueue), (2, spillQueue)] }
def swappedQueue : Queue := { spillQueue with recs := [], ring := [0], used := [0], swapped := true, wanted := some 0 }
def waitingQueue : State := queueing swappedQueue
/-- One that is swapped and owed nothing. -/
def idleQueue : Queue := { swappedQueue with wanted := none }
theorem witness_QueueMoves : (queueing spillQueue).queues = [] ++ (1, spillQueue) :: [] ∧ (queueing spillQueue).leaves spillQueue = some ({ args := [3] }, none)
    ∧ (queueing spillQueue).leaves { spillQueue with recs := [] } = none ∧ 2 ^ 25 < crowded.areaUsed 0 + crowded.swapNeed 0 ∧ crowded.queuesAt 0 = [(1, bigQueue), (2, spillQueue)]
    ∧ ([1, 2, 3].all fun k => decide (crowded.areaUsed k + crowded.swapNeed k ≤ 2 ^ 25)) = true
    ∧ idleLongest crowded 0 2 spillQueue ∧ owedLongest waitingQueue 1 swappedQueue ∧ fitsAgain waitingQueue swappedQueue 0 ∧ waitingQueue.queues = [(1, swappedQueue)]
    ∧ fitsAgain (queueing idleQueue) idleQueue ((queueing idleQueue).swapNeed 0) ∧ ¬ owedPlace (queueing idleQueue) idleQueue := by
  have big : ¬ canLeave crowded bigQueue := fun h => nomatch h.1
  refine ⟨rfl, by decide +kernel, by decide +kernel, by decide +kernel, by decide +kernel, by decide +kernel, ⟨by decide +kernel, ⟨rfl, rfl, by decide +kernel, by decide +kernel⟩, ?_⟩,
    ⟨by decide +kernel, ⟨rfl, 0, rfl, Nat.zero_le _⟩, ?_⟩, ⟨rfl, by decide, by decide +kernel⟩, rfl, ⟨rfl, by decide, by decide +kernel⟩, fun h => ?_⟩
  · have l : crowded.queuesAt 0 = [(1, bigQueue), (2, spillQueue)] := by decide +kernel
    intro e he hc
    rw [l] at he
    rcases List.mem_cons.1 he with rfl | he
    · exact absurd hc big
    · exact Or.inl (List.mem_singleton.1 he)
  · have l : waitingQueue.queuesAt 0 = [(1, swappedQueue)] := by decide +kernel
    intro e he _
    exact Or.inl (List.mem_singleton.1 (l ▸ he))
  · obtain ⟨-, u, hu, -⟩ := h
    exact nomatch hu

/-- A swapped queue whose ring is full. -/
theorem witness_FullRing : let q : Queue := { swappedQueue with pages := 1, used := List.range 64, cap := 70 }
    q.swapped = true ∧ (queueing q).ringFull q = true ∧ arrivalStatus (queueing q) recordWord.toNat = (0, false) := by decide +kernel

/-- A rewrite of the interleave table keeps a record from a ring at an interleaved PA, a qnew from its walks, and a kick behind a write of its function. -/
def ringOut : State := { queueing { spillQueue with recs := [], ring := [2 ^ 44], swapped := true } with itbusy := true }
def qnewWord : Word64 := 0x0001000110000000
def walksOut (busy : Bool) : State :=
  { (slotted.updCtx 0 fun x => (x.setS 4 qnewWord).setS 6 0x5000) with itbusy := busy, funcs := [(0, { slotBase := 0, slotCount := 4096, ptroot := 2 ^ 44 + 1 })] }
def kicked (busy : Bool) : State := { loaded with itbusy := busy, heldReqs := if busy then [.hostBar2Access 0 0 (.write [0])] else [] }
theorem witness_HeldBack : ringOut.recHeld (leBytes 64 recordWord.toNat) = true ∧ (queueing spillQueue).recHeld (leBytes 64 recordWord.toNat) = false
    ∧ ([true, false].all fun busy => ready (walksOut busy) (.qnew { d := .s 5, a := .s 4, b := .s 6 }) && qnewHeld (walksOut busy) 0 qnewWord 0x5000 == busy
        && decide ((qnewAnswer (walksOut busy) 0 qnewWord 0x5000).2 = 5) && decide (arg ((walksOut busy).ctx 0) { a := .s 4 } (.s 4) = qnewWord)) = true
    ∧ ([true, false].all fun busy => (kicked busy).kickHeld 0 8 0 [] == busy && !(kicked busy).recovery) = true
    ∧ (loaded.func 2).commit ≠ none ∧ ((kicked true).heldReqs.filter fun i => match i with | .kick f _ _ _ => f != 1 + 0 | _ => true) = (kicked true).heldReqs := by decide +kernel

/-! Invocations. -/
/-- One released to a device, its number and when it was sent. -/
def invocation (acc : Nat) (sent : Option Nat) : Invoked := { h := { task := 0, blk := 0, serial := 0, row := 0, emit := 0, r := { seq := 7 }, acc := some acc, slot := 0, fut := some 0xC001 }, sent := sent, first := 0 }
def invoking (i : Invoked) (clk : Nat) : State := { futured 2 1 with invoked := [i], xclk := clk }
def retire : RetireW := { acc := 1, m := 0, f := 0, t := 1, sent := 0 }
def kept : Retained := { source := 1, seq := 0, status := 0, at_ := 0, m := 0 }
def waking : State := { row with retireWrites := [retire], retained := [kept], xclk := 2 ^ 20, mdies := [(0, { clk := 2 ^ 34 })] }
theorem witness_InvocationsEnd : (invoking (invocation 1 none) 0).invoked.find? (invoking (invocation 1 none) 0).sendable = some (invocation 1 none) ∧ (invocation 1 none).h.acc = some 1 ∧ 1 ≠ (invoking (invocation 1 none) 0).accId
    ∧ (7 + 4 * 2 ^ 56) / 2 ^ 64 = 0 ∧ (7 + 4 * 2 ^ 56) / 2 ^ 56 ≤ 4
    ∧ ((invoking (invocation 1 (some 0)) (2 ^ 20)).invoked.find? fun e => e.sent.isSome && e.h.r.seq == (7 + 4 * 2 ^ 56) % 2 ^ 56) = some (invocation 1 (some 0))
    ∧ ((invoking (invocation 1 (some 0)) (2 ^ 20)).invoked.find? fun e => match e.sent with | some t => decide (t + 2 ^ 20 ≤ 2 ^ 20) | none => false) = some (invocation 1 (some 0))
    ∧ ((invoking (invocation 1 (some 0)) (2 ^ 30)).invoked.find? fun e => e.sent.isSome && decide (e.first + 2 ^ 30 ≤ 2 ^ 30)) = some (invocation 1 (some 0))
    ∧ (row.future? 0xC001 = none) ∧ ((futured 2 1).future? 0xC001).map (·.state) = some 1
    ∧ (invoking (invocation 0 none) 0).accId = 0 ∧ (waking.retireWrites.find? fun e => e.acc == 1 && e.m == bytesOf 0x1000000000000001 4 1 && e.t == bytesOf 0x1000000000000001 0 4) = some retire ∧ bytesOf 0x1000000000000001 7 1 = 0x10
    ∧ bytesOf 0x1000000000000001 5 2 = 0 ∧ bytesOf 0x1000000000000001 8 8 = 0 ∧ (waking.retireWrites.find? fun w => decide (w.sent + 2 ^ 20 ≤ waking.xclk)) = some retire
    ∧ (waking.retained.find? fun e => decide (e.at_ + 2 ^ 34 ≤ (waking.mdie e.m).clk)) = some kept
    ∧ (bytesOf 0x10000000000001 0 2 < 1024 ∧ bytesOf 0x10000000000001 2 1 < 4 ∧ bytesOf 0x10000000000001 3 4 < 2 ^ 30 ∧ bytesOf 0x10000000000001 7 4 < 2 ^ 30 ∧ bytesOf 0x10000000000001 11 5 = 0) := by decide +kernel

/-! Placement. A block on die 0's M-die waits, alone. -/
def waiting (f : Block → Block) : State :=
  { State.reset with tasks := [(0, { fn := 0, slot := 0, node := 0, replay := none, hdr := { entry := 64 }, total := 1 })], nextBlock := 1, nextTask := 1, mdies := [(0, { ready := [0] })]
                     blocks := [(0, f { task := 0, fn := 0, slot := 0, node := 0, hdr := { entry := 64 }, blkid := 0, prio := 0, recs := [], bin := 0, serial := 0, formed := 0 })] }
/-- The same where nothing fits: every C-die has failed but die 0, and M-die 0's clock has run. -/
def passedOver : State := { waiting fun b => { b with passedFrom := some 0, hdr := { b.hdr with side := 2 ^ 21 } } with mdies := [(0, { ready := [0], clk := 2 ^ 22 })] }
/-- A die whose steal request is at its first M-die, and one at its last. -/
def stealing (k : Nat) (f : Block → Block) : State := { waiting f with cdies := [(0, { steal := some { k := k, due := 0 } })] }
def placedFirst (s : State) (d : Nat) : Bool := match s.readyOrder 0 with
  | (b, x) :: _ => (match s.bestCluster d b x none with | some (0, some p) => decide (p.rows = [0] ∧ p.spans = [⟨0, 0, 128⟩]) | _ => false) && decide (x.phase = .ready) && !s.arbitrated x.task && decide (s.block? b = some x)
  | _ => false
theorem witness_PlacementEvents : let s := waiting id
    (s.mdie 0).placed ≠ some (s.mdie 0).clk ∧ (s.updMdie 0 fun x => { x with placed := some 0 }).mdie 0 = { s.mdie 0 with placed := some (s.mdie 0).clk }
    ∧ (∀ e ∈ s.readyOrder 0, s.arbitrated e.2.task = false) ∧ ((s.choose 0 (s.readyOrder 0)).map fun w => (w.1, w.2.2.1, w.2.2.2.map (·.rows))) = some (0, 0, some [0])
    ∧ (∀ e ∈ passedOver.readyOrder 0, passedOver.arbitrated e.2.task = false) ∧ (passedOver.choose 0 (passedOver.readyOrder 0)).isNone = true ∧ (passedOver.readyOrder 0).length = 1
    ∧ (passedOver.mdie 0).anchor = none ∧ passedOver.clusters = [] ∧ ((passedOver.readyOrder 0).all fun e => e.2.passedFrom == some 0) = true ∧ 0 + 2 ^ 22 ≤ (passedOver.mdie 0).clk
    ∧ (passedOver.cdie 0).failed = false ∧ (passedOver.cluster 0).closed = none
    ∧ ((waiting id).updCdie 0 fun d => { d with idleCount := 4096 }).cdie 0 = { idleCount := 4096 } ∧ ((stealing 1 id).cdie 0).steal = some { k := 1, due := 0 } ∧ ((stealing 3 id).cdie 0).steal = some { k := 3, due := 0 }
    ∧ (stealing 1 id).readyOrder 1 = [] ∧ (stealing 3 id).readyOrder 3 = [] ∧ placedFirst (stealing 0 id) 0 = true ∧ ((stealing 0 id).mdie 0).anchor ≠ some 0 := by decide +kernel
/-- Nothing is due: no ready list, no steal, no grid. -/
theorem witness_NothingDue : State.reset.readyOrder 0 = [] ∧ (∀ st, (State.reset.cdie 0).steal = some st → (State.reset.cdie 0).clk < st.due) ∧ State.reset.grids = [] ∧ (State.reset.cdie 0).idleCount < 4096
    ∧ (∀ e ∈ State.reset.readyOrder 0, ∀ u, e.2.passedFrom = some u → (State.reset.mdie 0).clk < u + 2 ^ 22) :=
  ⟨rfl, fun _ h => (nomatch h), rfl, by decide, fun _ h => nomatch h⟩
/-- An idle grid, one at the end of its warm-up, and parts with nothing outstanding. -/
def idling (x : Grid) : State := { State.reset with grids := [(5, x)] }
theorem witness_Gating : ((idling { idle := 65536 }).grids.find? fun e => !e.2.gated && decide (65536 ≤ e.2.idle) && !((idling { idle := 65536 }).ctxs.any fun c => gridOf c.1 == e.1) && ((idling { idle := 65536 }).grid e.1).leat.isEmpty && e.2.fills.isEmpty && !(idling { idle := 65536 }).isTarget e.1) = some (5, { idle := 65536 })
    ∧ ((idling { warm := 1 }).grids.find? fun e => e.2.warm == 1) = some (5, { warm := 1 })
    ∧ State.reset.ctxs = [] ∧ State.reset.grids = [] ∧ (State.reset.cdie 0).walks = [] ∧ (State.reset.cdie 0).steal = none ∧ (State.reset.mdie 0).inserts = [] ∧ (State.reset.mdie 0).bins = [] ∧ (State.reset.mdie 0).ready = []
    ∧ State.reset.invoked = [] ∧ State.reset.retireWrites = [] ∧ State.reset.peerWrites = [] ∧ State.reset.queues = [] ∧ State.reset.cdies = []
    ∧ row.cdieBusy 0 = true ∧ (waiting id).mdieBusy 0 = true ∧ (invoking (invocation 1 none) 0).xdieBusy = true := by decide +kernel

theorem witness_DieAsleep : (∀ e ∈ State.reset.ctxs, ∀ due line, e.2.stage ≠ .arming due none line) ∧ (∀ e ∈ State.reset.blocks, e.2.stealing = none ∧ e.2.takers = []) ∧ State.reset.heldBacks = [] :=
  ⟨fun _ h => by simp [State.reset] at h, fun _ h => by simp [State.reset] at h, rfl⟩
/-! The ends of work. -/
/-- The row waits for its task's start. -/
def beforeStart : State := rowX fun x => { x with held := true }
/-- A region of the row's block that rdone closed, before and after its flush. -/
def flushing (started : Bool) : State := { watched with flushes := [{ blk := 0, reg := 0, cid := 0, waitStores := 0, ops := [], futs := [(0xC001, 1)], started := started }] }
/-- The same before the first step of its start, once that step's writes are back, and while one is not. -/
def starting (mark : Nat) (out : List Nat) : State := { (beforeStart.updTask 0 fun t => { t with starting := [(0, mark)] }) with peerWrites := out }
/-- The row has done all it had to. -/
def leftOff : State := rowX fun x => { x with done := true }
/-- Task 0 is over, of a replay of one node that has started it. -/
def replaying (started finished : List Nat) : State :=
  { row with replays := [(0, { fn := 0, slot := 0, kick := 1, count := 0, image := seeded, started := started, finished := finished })]
             tasks := [(0, { fn := 0, slot := 0, node := 0, replay := some 0, hdr := {}, total := 1, retired := 1, finishing := some 0, active := true })] }
/-- Its completion action has still to begin. -/
def owing : State := (replaying [0] []).updTask 0 fun t => { t with finishing := none }
theorem witness_WorkEnds : (beforeStart.ctxs.any fun e => e.2.held && dieOf (gridOf e.1) == 0 && (beforeStart.blockOf e.2).task == 0) = true ∧ (beforeStart.task? 0).isSome = true
    ∧ beforeStart.startMark 0 0 = none ∧ beforeStart.heldBacks = [] ∧ beforeStart.peerWrites = [] ∧ (beforeStart.cdies.all fun e => e.2.dcache.isEmpty) = true
    ∧ (starting 3 []).startMark 0 0 = some 3 ∧ (starting 3 []).backTo 3 = true ∧ (starting 3 [2]).startMark 0 0 = some 3 ∧ (starting 3 [2]).peerWrites = [2]
    ∧ ((flushing false).flushes.find? (flushing false).flushReady).isSome = true ∧ ((flushing false).block? 0).isSome = true ∧ ((flushing true).flushes.find? fun e => e.started && !e.done && (flushing true).backTo e.mark).isSome = true ∧ ((flushing true).task? 0).isSome = true
    ∧ leftOff.dueRetire = some 0 ∧ (leftOff.block? 0).isSome = true
    ∧ ((replaying [0] []).tasks.find? fun e => (replaying [0] []).taskDue e.1 e.2).map (·.1) = some 0 ∧ ((replaying [0] []).replay? 0).isSome = true ∧ ((replaying [0] []).taskOf { row.blockOf (row.ctx 0) with task := 0 }).owesAction = false
    ∧ (owing.tasks.find? fun e => owing.taskDue e.1 e.2).map (fun e => (e.1, e.2.owesAction)) = some (0, true)
    ∧ ((replaying [] []).dueNodes.map fun e => (e.1, e.2.1)) = [(0, 0)] ∧ ((replaying [0] [0]).replays.find? fun e => (replaying [0] [0]).replayDue e.1 e.2).map (·.1) = some 0
    ∧ (replaying [0] [0]).peerWrites = [] ∧ ((replaying [0] [0]).cdies.all fun e => e.2.dcache.isEmpty) = true := by decide +kernel
/-- A handler's task is over. -/
def handled : State := { row with tasks := [(0, { fn := 0, slot := 0, node := 0, replay := none, hdr := {}, total := 1, retired := 1, finishing := some 0, active := true })] }
theorem witness_HandlerEnds : ((handled.tasks.find? fun e => handled.taskDue e.1 e.2).map fun e => (e.1, e.2.owesAction, e.2.replay)) = some (0, false, none) := by decide +kernel

/-- A line of die d's cache whose first four bytes are dirty, of a home and with forward tags. -/
def aLine (kind target : Nat) (tags : Tbl (Nat × Nat)) : DLine := { fn := 0, va := 0x1000, kind := kind, target := target, bytes := List.replicate 64 7, valid := 0xFF, dirty := 0xF, tags := tags }
def withLine (d : Nat) (l : DLine) (s : State) : State := { s with cdies := [(d, { dcache := [(dkey 0 0x1000, l)] })] }
/-- Of this memory, of a peer's, and of an interleaved PA while the table is rewritten. -/
def homes : List (Nat × Nat × Bool) := [(0, 0x1000, false), (1, 0x1000, false), (0, 2 ^ 44, true)]
/-- A flush, a start, a completion action and a replay's end that find such a line; the task writes its region. -/
def tasked (f : Task → Task) (s : State) : State := s.updTask 0 fun t => f { t with dies := [0], hdr := { t.hdr with regions := [{ base := 0x1000, extent := 64, mode := 2 }] } }
def finders (h : Nat × Nat × Bool) : List (Instr × State) :=
  [(.rdoneFlush, withLine 0 (aLine h.1 h.2.1 []) (flushing false)), (.taskStartAction 0 0, withLine 1 (aLine h.1 h.2.1 ((List.range 4).map fun i => (i, 1, 0))) (tasked id beforeStart)),
    (.taskComplete, withLine 0 (aLine h.1 h.2.1 []) (tasked id owing)), (.blockRetire, withLine 0 (aLine h.1 h.2.1 []) (tasked id leftOff)),
    (.replayComplete, withLine 0 (aLine h.1 h.2.1 ((List.range 4).map fun i => (i, 0, 0))) (replaying [0] [0]))].map fun e => (e.1, { e.2 with itbusy := h.2.2 })
/-- What became of bytes 3 and 4 of the line: at home, held back, on their way. -/
def became (h : Nat × Nat × Bool) (e : Instr × State) : Nat × Nat × Nat × Bool :=
  match exec e.1 e.2 with
  | .next t => ((t.home.read 0x1003).toNat, (t.home.read 0x1004).toNat, t.heldBacks.length + t.peerWrites.length, t.out.any fun o => o == .memRequest h.1 h.2.1 (.write (List.replicate 4 7)))
  | _ => (0, 0, 0, false)
theorem test_dirty_bytes_leave : homes.map (fun h => (finders h).map (became h)) = [List.replicate 5 (7, 0, 0, false), List.replicate 5 (0, 0, 1, true), List.replicate 5 (0, 0, 1, false)] := by decide +kernel
theorem witness_LineInv : (withLine 0 (aLine 0 0x1000 []) (flushing false)).Inv ∧ (withLine 1 (aLine 0 0x1000 [(0, 1, 0)]) (tasked id beforeStart)).Inv ∧ (withLine 0 (aLine 0 0x1000 []) (tasked id owing)).Inv
    ∧ ({ withLine 0 (aLine 0 (2 ^ 44) []) (tasked id leftOff) with itbusy := true } : State).Inv ∧ (withLine 0 (aLine 1 0x1000 [(0, 0, 0)]) (replaying [0] [0])).Inv := by
  refine ⟨?_, ?_, ?_, ?_, ?_⟩ <;> constructor <;> decide +kernel
theorem witness_GoneHome : (aLine 0 0x1000 []).bytes.length = 64 ∧ (aLine 0 0x1000 []).dirty &&& ~~~(aLine 0 0x1000 []).valid = 0
    ∧ ((finders (0, 0x1000, false)).all fun e => (List.range 64).all fun j => decide (e.2.homeOf (0x1000 + j) = some (0x1000 + j)) && !e.2.memBad (0x1000 + j) && !e.2.heldPa (0x1000 + j)) = true
    ∧ ((finders (0, 2 ^ 44, true)).all fun e => (List.range 64).all fun j => e.2.heldPa (2 ^ 44 + j)) = true
    ∧ ((owing.taskOf (row.blockOf (row.ctx 0))).hdr.writeRegions.isEmpty && ((tasked id owing).taskOf (row.blockOf (row.ctx 0))).hdr.writeRegions.all fun w => !w.isForward) = true
    ∧ inRegions [{ base := 0x1000, extent := 64, mode := 2 }] (aLine 0 0x1000 []) = BitVec.allOnes 64 := by decide +kernel
theorem witness_SoleAt (s : State) (l : DLine) : soleAt (withLine 0 l s) 0 (dkey 0 0x1000) 0x1000 := by
  intro d k m h hne
  by_cases hd : d = 0
  · subst hd
    by_cases hk : k = dkey 0 0x1000
    · subst hk; exact absurd rfl hne
    · have : (withLine 0 l s).dline? 0 k = none := by
        simp [State.dline?, withLine, State.cdie, Tables.get?, Ne.symm hk]
      rw [this] at h; exact nomatch h
  · have : (withLine 0 l s).dline? d k = none := by
      simp [State.dline?, withLine, State.cdie, Tables.get?, Ne.symm hd]
    rw [this] at h; exact nomatch h

/-! Interrupted work. -/
/-- Block 0 of the row holds cluster 0, which anchored block 1, of a higher priority and too large to go beside it, waits for. -/
def anchored : State :=
  { row with blocks := row.blocks ++ [(1, { row.blockOf (row.ctx 0) with prio := 11, phase := .ready, rows := [], spans := [], hdr := { side := 2 ^ 21 } })], clusters := [(0, { closed := some 0 })]
             mdies := [(0, { anchor := some 1, ready := [1] })] }
def inPhase (p : BPhase) : State := row.updBlock 0 fun b => { b with phase := p }
/-- The same with nothing of the row in flight, and with a result on its way. -/
def heldBack (p : BPhase) (l : List InFlight) : State := (inPhase p).updCtx 0 fun x => { x with held := true, inflight := l }
/-- Its save has flushed. -/
def marked : State := (heldBack (.stopping false) []).updBlock 0 fun b => { b with mark := some 3 }
/-- A block image of one row, of an unclaimed cluster 0. -/
def savedBlock : State := { (waiting fun b => { b with phase := .saved, rows := [0], image := some [row.ctx 0], spans := [⟨0, 0, 0x200000⟩], imageMem := [(0, [])] }) with mdies := [(0, { ready := [0] })] }
theorem witness_Preemption : anchored.preemptDue 0 = some 0 ∧ ((anchored.block? 0).map fun b => b.rows) = some [0] ∧ anchored.inChain 0 = false
    ∧ ((inPhase (.draining 0)).blocks.find? fun e => match e.2.phase with | .draining u => decide (u ≤ ((inPhase (.draining 0)).cdie (e.2.cluster / 2)).clk) | _ => false).map (·.1) = some 0
    ∧ ([true, false].all fun r => (heldBack (.stopping r) []).ctxs.all fun e => e.2.held && e.2.inflight.isEmpty && e.2.stores.isEmpty && e.2.pendingTrap.isNone && e.2.bankOps.isEmpty && e.2.loop.isNone) = true
    ∧ ((heldBack (.stopping true) []).grids.all fun e => e.2.leat.isEmpty) = true ∧ ((heldBack (.stopping true) [{ id := 0, due := 4, writes := [] }]).ctx 0).inflight ≠ []
    ∧ (heldBack (.stopping false) []).peerWrites = [] ∧ (heldBack (.stopping false) []).heldBacks = [] ∧ ((heldBack (.stopping false) []).cdies.all fun e => e.2.dcache.isEmpty) = true
    ∧ (marked.block? 0).map (fun b => (b.mark, b.asked)) = some (some 3, []) ∧ marked.wakes = [] ∧ marked.backTo 3 = true ∧ ({ marked with peerWrites := [2] } : State).peerWrites = [2]
    ∧ ((savedBlock.block? 0).map fun b => decide (b.phase = .saved) && b.image.isSome && !savedBlock.imageLost b && decide ((savedBlock.choose 0 (savedBlock.readyOrder 0)) = some (0, b, 0, none))) = some true
    ∧ (savedBlock.mdie 0).placed ≠ some (savedBlock.mdie 0).clk ∧ (∀ e ∈ savedBlock.readyOrder 0, savedBlock.arbitrated e.2.task = false) := by decide +kernel
/-- Grid 0 with a migration of a state. -/
def migrating (m : Migration) (clk : Nat) : State := row.updGrid 0 fun g => { g with migration := some m, clk := clk }
theorem witness_Migration : (row.grid 0).gated = false ∧ (row.grid 0).migration = none ∧ ((idling { gated := true }).grid 5).gated = true ∧ ((95 * 16 : BitVec 16).toInt = 1520) ∧ ((105 * 16 : BitVec 16).toInt = 1680)
    ∧ ((migrating { target := some 3 } 0).grid 0).migration = some { target := some 3 } ∧ ((row.ctx 0).loop.isNone && !row.inChain 0) = true
    ∧ (((migrating { target := some 3, heldFrom := some 0 } 4096).dueMigration fun y n => !n.captured && n.lifted.isNone && (match n.heldFrom with | some u => decide (u + 4096 ≤ y.clk) | none => false)).isSome) = true
    ∧ (((migrating { target := some 3, lifted := some 0 } 4096).dueMigration fun y n => !n.captured && (match n.lifted with | some u => decide (u + 4096 ≤ y.clk) | none => false)).isSome) = true
    ∧ (((migrating { target := some 3 } (2 ^ 20)).dueMigration fun y n => !n.captured && !n.timedOut && decide (n.since + 2 ^ 20 ≤ y.clk)).isSome) = true
    ∧ (((migrating { target := some 3, captured := true } 0).grids.find? fun e => e.2.migration.isSome).map (·.1)) = some 0 ∧ ((migrating { target := some 3, captured := true } 0).grid 3).warm = 0
    ∧ ((migrating { target := some 3, captured := true } 0).ctxs.map (·.1)) = [0] ∧ gridOf 0 ≠ 3 ∧ (row.ctx 0).stores = [] ∧ (row.ctx 0).bankOps = [] := by decide +kernel

/-- Holds are lifted, with every context of the grid ready to be held, and with one in a loop. -/
theorem witness_LiftedCapture : ((migrating { target := some 3, lifted := some 0 } 4).grid 0).migration = some { target := some 3, lifted := some 0 } ∧ (row.ctxs.map (·.1)) = [0] ∧ (row.ctx 0).loop = none ∧ row.inChain 0 = false
    ∧ ((({ row with ctxs := [(0, { row.ctx 0 with loop := some ({ fmt := .t8, word := 0, first := 0, groups := 1, ksteps := 1, top := true, issued := 0, price := 4, held := 4 } : Loop) })] } : State).updGrid 0 fun g => { g with migration := some { target := some 3, lifted := some 0 } }).ctx 0).loop.isSome = true := by decide +kernel
/-- A mon.g of a row of die 0 on its way to a home on M-die 1, which a link may lose. -/
def farMon : State := rowX fun x => { x with stage := .arming 8 none (2 ^ 39) }
theorem witness_LostMon : (farMon.ctx? 0).map (·.stage) = some (.arming 8 none (2 ^ 39)) ∧ farMon.homeOf (64 * 2 ^ 39) = some (2 ^ 45) ∧ mdieOf (2 ^ 45) = 1 ∧ dieOf (gridOf 0) = 0 := by decide +kernel
/-- A request that finds no target, every other grid of the cluster being gone. -/
def stranded : State := { (migrating {} 0) with grids := (List.range 24).map fun g => (g, { retired := true, migration := if g = 0 then some {} else none }) }
theorem witness_NoTarget : stranded.migrationTarget 0 = none ∧ (stranded.grid 0).migration = some {} ∧ (stranded.ctx? 0).isSome = true ∧ (row.ctx 0).loop = none ∧ row.inChain 0 = false := by decide +kernel

/-! What lands, wakes and runs out. -/
/-- A result due now, one still queued, and a special function's entry. -/
def landing (r : InFlight) : State := rowX fun x => { x with inflight := [r] }
def sfuRow (last : Option Nat) : State := ((landing { id := 0, due := 0, writes := [.v 5 Lanes.zero 1], queued := true }).updRow 0 fun r => { r with sfuQueue := [(0, 0)], sfuLast := last }).updGrid 0 fun g => { g with clk := 4 }
theorem witness_Landing : ((landing { id := 0, due := 0, writes := [.s 9 1] }).ctx 0).inflight.find? (fun e => e.id == 0) = some { id := 0, due := 0, writes := [.s 9 1] } ∧ (landing { id := 0, due := 0, writes := [] }).now 0 = 0
    ∧ ((sfuRow none).prow 0).sfuQueue = [(0, 0)] ∧ ((sfuRow (some 0)).prow 0).sfuLast = some 0 ∧ 0 + 4 ≤ (sfuRow (some 0)).now 0 ∧ (sfuRow (some 1)).now 0 < 1 + 4
    ∧ ((rowX fun x => { x with pendingTrap := some { cause := 5 }, trapvec := 0x4000 }).ctx 0).inflight = [] ∧ vectorOfCause ((rowX fun x => { x with trapvec := 0x4000 }).ctx 0) 5 ≠ 0 := by decide +kernel
/-- The row parked on a future that has settled, on a barrier that has passed, and on a watch whose wake has come. -/
def parkedOn (w : Wait) (f : Ctx → Ctx := id) : State := rowX fun x => f { x with parked := some w }
theorem witness_Waking : ripe (parkedOn (.future 0xC001)) (.future 0xC001) 0 ((parkedOn (.future 0xC001)).ctx 0)
    ∧ ((((barred 1 fun x => { x with parked := some (.barrier none 0 0) }).blockOf (row.ctx 0)).barrier (barrierKey none 0)).phase - 0 : Word32).toNat = 1
    ∧ (parkedOn (.watch none) fun x => { x with wake := some 0 }).ctx? 0 ≠ none
    ∧ (({ rowX (fun x => { x with watch := some ⟨none, 64, 5, 0x1000⟩ }) with wakes := [(0, 5, 1)] } : State).wakes.find? fun e => e.1 == 0 && e.2.1 == 5) = some (0, 5, 1)
    ∧ ((parkedOn (.watch (some 0))).ctxs.find? fun e => match e.2.parked with | some (.watch (some u)) => decide (u ≤ row.now e.1) | _ => false).isSome = true
    ∧ ((rowX fun x => { x with yieldedUntil := some 0 }).ctxs.find? fun e => match e.2.yieldedUntil with | some u => decide (u ≤ row.now e.1) | none => false).isSome = true
    ∧ (((rowX fun x => { x with repollAt := some 0 }).updGrid 0 fun g => { g with clk := 1 }).ctxs.find? fun e => match e.2.repollAt with | some u => decide (u < 1) | none => false).isSome = true
    ∧ ((row.updRow 0 fun r => { r with chain := some (0, 0), chainStall := 64 }).prow 0).chainStall = 64 := by
  refine ⟨⟨by decide +kernel, fun e h => by have n : (parkedOn (.future 0xC001)).future? 0xC001 = none := by decide +kernel
                                            exact nomatch n.symm.trans h⟩, ?_, ?_, ?_, ?_, ?_, ?_, ?_⟩ <;> decide +kernel
/-- Block 0 asks for work, with nobody to ask, and with block 1 of its task to ask. -/
def asking : State := (inPhase .resident).updBlock 0 fun b => { b with takers := [0] }
def asking2 : State := { (asking.updTask 0 fun t => { t with total := 2 }) with blocks := asking.blocks ++ [(1, { row.blockOf (row.ctx 0) with blkid := 1, rows := [], hasRange := true })] }
theorem witness_Steals : (asking.blocks.find? fun e => e.2.mustSteal).map (·.1) = some 0 ∧ (asking.blocks.map fun e => e.1) = [0]
    ∧ (asking2.blocks.map fun e => (e.1, e.2.task, e.2.hasRange, ringTo asking2 (asking2.blockOf (row.ctx 0)) e.2)) = [(0, 0, false, 0), (1, 0, true, 1)]
    ∧ ((asking2.block? 1).map fun b => b.hasRange && b.phase != .saved) = some true := by decide +kernel
/-- A top row's loop of one step of one group from slot 0, at its turn; waiting; over. -/
def looped (l : Loop) (clk : Nat) : State := (rowX fun x => { x with loop := some l }).updGrid 0 fun g => { g with clk := clk }
def aLoop : Loop := { fmt := .t8, word := 0, first := 0, groups := 1, ksteps := 1, top := true, issued := 0, price := 4, held := 4 }
/-- The packet is at grid 0, whose row asks for 8 buckets. -/
def wheeling : State := rowX fun x => { x with request := some { price := 8, cycle := 0 } }
theorem witness_Wheel : ((wheeling.cluster 0).tick ≤ (wheeling.cdie 0).clk ∧ (wheeling.cluster 0).pos < 24 ∧ (∀ i, i < 24 → (wheeling.grid (24 * 0 + i)).topups = [])
    ∧ 8 ≤ freeAfter (wheeling.cluster 0) (wheeling.grid 0).returned ∧ wheeling.ctxs.map (·.1) = [0] ∧ (requestsOf (wheeling.ctx 0)).map (fun r => (r.price, r.reserved)) = [(8, false)]
    ∧ (requestsOf ((looped { aLoop with shed := true, held := 0, request := some { price := 4, cycle := 0 } } 0).ctx 0)).map (fun r => (r.price, r.reserved)) = [(4, false)])
    ∧ ((row.updCluster 0 fun c => { c with tick := 1 }).cdie 0).clk < ((row.updCluster 0 fun c => { c with tick := 1 }).cluster 0).tick
    ∧ ((idling { clk := 2 ^ 16 }).grids.find? fun e => !e.2.gated && e.2.warm == 0 && decide (e.2.winStart + 2 ^ 16 ≤ e.2.clk)) = some (5, { clk := 2 ^ 16 }) ∧ (idling { clk := 2 ^ 16 }).grid 5 = { clk := 2 ^ 16 }
    ∧ ((idling { clk := 3, change := some (1, 3) }).grids.find? fun e => match e.2.change with | some (_, v) => decide (v ≤ e.2.clk) | none => false) = some (5, { clk := 3, change := some (1, 3) }) := by decide +kernel
theorem witness_Window : ((idling { clk := 2 ^ 16 }).grids.map (·.1)).Nodup ∧ (5, { clk := 2 ^ 16 }) ∈ (idling { clk := 2 ^ 16 }).grids := by decide +kernel
/-- Two rows of one block, on both sides of an edge, of which the upper has a full register. -/
def linked (g : Nat) : State :=
  (((rowX fun x => { x with port := { full := true } }).updBlock 0 fun b => { b with rows := [0, 128 * g], hdr := { b.hdr with rows := 2 } }).setCtx (128 * g) { blk := 0, k := 1, rowid := 1 })
theorem witness_Loops : ((looped aLoop 1).ctx 0).loop = some aLoop ∧ aLoop.shed = false ∧ aLoop.doneAt = none ∧ stepInputs (looped aLoop 1) 0 aLoop = true ∧ stepTime (looped aLoop 1) 0 aLoop = true ∧ stepTime (looped aLoop 0) 0 aLoop = false
    ∧ stepInputs (looped { aLoop with word := 0x0100000000000000 } 1) 0 { aLoop with word := 0x0100000000000000 } = false ∧ stepTime (looped { aLoop with word := 0x0100000000000000 } 1) 0 { aLoop with word := 0x0100000000000000 } = true
    ∧ ((looped { aLoop with waited := 48 } 1).ctx 0).loop = some { aLoop with waited := 48 } ∧ ((looped { aLoop with doneAt := some 4 } 4).ctx 0).loop = some { aLoop with doneAt := some 4 } ∧ 4 ≤ (looped { aLoop with doneAt := some 4 } 4).now 0
    ∧ ([1, 12].all fun g => decide (((linked g).blockOf ((linked g).ctx 0)).rows[((linked g).ctx 0).k + 1]? = some (128 * g)) && decide (((linked g).ctx 0).rowid + 1 ≠ ((linked g).blockOf ((linked g).ctx 0)).hdr.rows)
        && decide (gridOf (128 * g) ≠ gridOf 0) && ((linked g).ctx 0).port.full) = true := by decide +kernel

/-- A loop stopped for a save of its block that then goes on, one that stops, and one whose step enters the top of a band. -/
def stopping (l : Loop) : State := (looped l 1).updBlock 0 fun b => { b with phase := .stopping false }
def cadenced (t : List (Nat × Request)) : State := (looped aLoop 1).updGrid 0 fun g => { g with mcadNext := some 3, topups := t }
theorem witness_LoopsStop : ((looped { aLoop with halted := true, held := 0 } 1).ctx 0).loop = some { aLoop with halted := true, held := 0 } ∧ ((looped aLoop 1).blockOf ((looped aLoop 1).ctx 0)).phase ≠ .stopping false ∧ 0 < aLoop.price
    ∧ ((stopping aLoop).blockOf ((stopping aLoop).ctx 0)).phase = .stopping false ∧ ((stopping aLoop).ctx 0).loop = some aLoop ∧ aLoop.halted = false
    ∧ ([cadenced [], cadenced [(128, { price := 4, cycle := 0 })]].all fun s => stepInputs s 0 aLoop && stepTime s 0 aLoop && (s.grid (gridOf 0)).mcadNext == some 3 && decide ((s.blockOf (s.ctx 0)).phase ≠ .stopping false)) = true ∧ aLoop.top = true := by decide +kernel

/-! The Leat, fills and errors. A region of the row's block at 0x1000, for reads, writes and atomics, on a page of its own. -/
def mapped (o : LeatOp) (mode : Nat) (leaf : Nat) : State :=
  ((row.updBlock 0 fun b => { b with hdr := { b.hdr with nreg := 1, regions := [{ base := 0x1000, extent := 4096, mode := mode }] } }).updGrid 0 fun g => { g with leat := [o] }).updCluster 0
    fun c => { c with tlb := [{ fn := 0, base := 0x1000, size := 12, leaf := leaf }] }
/-- Four bytes of the row's side memory from 0x1000, once started, with a beat sent. -/
def opOf (kind : LeatKind) : LeatOp :=
  { id := 7, cid := 0, blk := 0, kind := kind, ty := .i8, layB := false, gva := 0x1000, lva := 0x40, e0 := 4, n1 := 1, n2 := 1, gs1 := 0, gs2 := 0, ls1 := 0, ls2 := 0, reg := 0, iw := false, list := 0
    fut := 0xC001, buckets := 0, waitStores := 0 }
def aBeat (kind : Nat) : Beat := { id := 0, line := 64, runs := [⟨0, 0, 0x1000, 4⟩], expires := 2 ^ 20, target := 0x1000, kind := kind, gen := 1 }
def sentOp (kind : LeatKind) (k : Nat) : LeatOp := { opOf kind with started := true, at_ := (4, 0), beats := [aBeat k], nextBeat := 1 }
def uncached (kind : LeatKind) (k : Nat) : State := { mapped (sentOp kind k) 7 0x100D with dsplit := 0 }
theorem witness_LeatIssue : ((mapped (opOf .cpyLd) 3 0x100D).grid 0).leat.find? (fun p => !p.sent && !p.stuck (mapped (opOf .cpyLd) 3 0x100D)) = some (opOf .cpyLd) ∧ (opOf .cpyLd).at_.1 < (opOf .cpyLd).total ∧ (opOf .cpyLd).failure = none
    ∧ ((mapped { opOf .cpyLd with started := true } 3 0x100D).grid 0).leat.find? (fun p => !p.sent && !p.stuck (mapped { opOf .cpyLd with started := true } 3 0x100D)) = some { opOf .cpyLd with started := true }
    ∧ ((mapped { opOf .cpyLd with waitStores := 1 } 3 0x100D).grid 0).leat.find? (fun p => !p.sent && !p.stuck (mapped { opOf .cpyLd with waitStores := 1 } 3 0x100D)) = some { opOf .cpyLd with waitStores := 1 }
    ∧ ((opOf .cpyLd).runsAt 64 0 0 none).1.head? = some ⟨0, 0, 0x1000, 1⟩ ∧ (mapped (opOf .cpyLd) 3 0x100D).listBad (opOf .cpyLd) = false
    ∧ ((mapped (opOf .gather) 3 0x100D).updGrid 0 fun g => { g with badLines := [(0, 0)] }).listBad (opOf .gather) = true ∧ (opOf .gather).beats = []
    ∧ (mapped (opOf .cpyLd) 3 0x100D).walkLost 0 0x1000 = false := by decide +kernel
theorem witness_LeatTargets : let o := { opOf .cpyLd with started := true }
    let b (mode : Nat) := (mapped o mode 0x100D).blockOf ((mapped o mode 0x100D).ctx 0)
    ((o.runsAt 64 0 0 none).1.all fun r => runAllowed (b 3) o.shut o.reg 0 r) = true ∧ ((o.runsAt 64 0 0 none).1.find? fun r => !runAllowed (b 2) o.shut o.reg 0 r) = some ⟨0, 0, 0x1000, 1⟩
    ∧ (match beatTarget (mapped o 3 0x100D) 0 (b 3) o 64 with | some (.ok t) => t == (0, 0x1000, false) | _ => false) = true ∧ (match beatTarget (mapped o 3 1) 0 (b 3) o 64 with | some (.error st) => st == 2 | _ => false) = true
    ∧ (({ mapped o 3 0x100D with dsplit := 0 } : State).grid 0).outstanding < 256 := by decide +kernel
theorem witness_LeatBeats : ([LeatKind.cpyLd, .gather, .cpySt, .scatter, .fill 0 0 false, .atomic .add .i32 1 0].all fun k => [0, 1].all fun n =>
      let s := uncached k n
      let o := sentOp k n
      (s.grid 0).leat == [o] && o.failure.isNone && !s.beatBad o (aBeat n) && !overtakes s o (aBeat n) && !s.bankBusy 0 (runPlaces s o ⟨0, 0, 0x1000, 4⟩) && decide (s.homeOf 0x1000 = some 0x1000)
        && ((List.range 4).all fun i => decide (s.resolve 0 (o.lAddr 0 + BitVec.ofNat 64 (0 + i)) 1 = some (.side 0, 0x40 + i)))) = true
    ∧ 0x1000 % 64 + 4 ≤ 64 ∧ (uncached .cpyLd 0).dsplit = 0 ∧ (mapped (sentOp .cpySt 0) 7 0x100D).dsplit ≠ 0 ∧ (mapped (sentOp .cpySt 0) 7 0x100D).dline? 0 (dkey 0 0x1000) = none
    ∧ ((mapped (sentOp .cpySt 0) 7 0x100D).cdie 0).dcache.length < dieCacheLines (mapped (sentOp .cpySt 0) 7 0x100D).dsplit
    ∧ (aBeat 0).runs.head? = some ⟨0, 0, 0x1000, 4⟩ ∧ (aBeat 0).crosses (uncached .cpyLd 0) 0 (sentOp .cpyLd 0) = true ∧ (aBeat 0).expires ≤ ((uncached .cpyLd 0).updGrid 0 fun g => { g with clk := 2 ^ 20 }).now 0 := by decide +kernel
/-- A beat lost with a link, and a walk. -/
theorem witness_Lost : ({ aBeat 0 with lost := true } : Beat).answer = none ∧ (({ State.reset with cdies := [(0, { walks := [(0, 1, 0)], lostWalks := [(0, 1)] })] } : State).cdie 0).lostWalks = [(0, 1)]
    ∧ (({ mapped (opOf .cpyLd) 3 0x1005 with peerWrites := [2] } : State).peerWrites.filter (· != 2)) = [] := by decide +kernel
/-- A read of a peer's line that the die cache holds, and one that goes past it although it holds forwarded bytes. -/
def peerLine : DLine := { fn := 0, va := 0x1000, kind := 1, target := 0x1000, bytes := List.replicate 64 7, valid := 0xFFFFFFFFFFFFFFFF, dirty := 0 }
def peered : State := (mapped { opOf .cpyLd with started := true } 3 0x104D).updCdie 0 fun d => { d with dcache := [(dkey 0 0x1000, peerLine)] }
def forwarded : State := ({ mapped { opOf .cpyLd with started := true } 7 0x100D with dsplit := 0 } : State).updCdie 0 fun d => { d with dcache := [(dkey 0 0x1000, { peerLine with kind := 0, dirty := 1, tags := [(0, 0, 1)] })] }
theorem witness_LeatServed : (match beatTarget peered 0 (peered.blockOf (peered.ctx 0)) { opOf .cpyLd with started := true } 64 with | some (.ok t) => t == (1, 0x1000, false) | _ => false) = true
    ∧ lineHit peered 0 0 { aBeat 1 with id := 0 } = true ∧ ¬ past peered (aBeat 1) ∧ past forwarded (aBeat 0) ∧ (forwarded.dline? 0 (dkey 0 0x1000)).map (fun l => l.tags.isEmpty) = some false
    ∧ Brings peered { aBeat 1 with answer := some peerLine.bytes } .home peerLine.bytes := by
  refine ⟨by decide +kernel, by decide +kernel, ?_, Or.inr (by decide +kernel), by decide +kernel, Or.inl ⟨rfl, fun _ h => nomatch h⟩⟩
  exact fun h => h.elim (by decide +kernel) (by decide +kernel)
/-- A failed line of side memory that only a saved block has reserved. -/
def failedSaved : State := { savedBlock with grids := [(0, { badLines := [(0, 0)] })] }
theorem witness_SavedLine : (0, 0) ∈ failedSaved.badLinesOf 0 ∧ ¬ lineHeld failedSaved 0 0 0 ∧ (failedSaved.block? 0).map (fun b => decide (b.spans = [⟨0, 0, 0x200000⟩])) = some true := by
  refine ⟨by decide +kernel, ?_, by decide +kernel⟩
  rintro ⟨e, he, hp, -⟩
  simp only [failedSaved, savedBlock, waiting, List.mem_singleton] at he
  subst he
  exact hp rfl
theorem witness_LeatInv : (uncached .cpyLd 0).Inv := by constructor <;> decide +kernel
/-- A walk of function 0's page 1 under way, with a root whose tables give it a page, and without a root. -/
def walking (root : Nat) (tables : List (Nat × Nat)) : State :=
  { State.reset with cdies := [(0, { walks := [(0, 1, 0)] })], funcs := [(0, { ptroot := root })], home := tables.foldl (fun (m : Mem) e => Mem.writeNum m e.1 8 e.2) [] }
def tables : List (Nat × Nat) := [(0x10000, 0x20001), (0x20000, 0x30001), (0x30000, 0x40001), (0x40008, 0x100F)]
theorem witness_Walks : ((walking 0 []).cdie 0).walks.any (fun w => w.1 == 0 && w.2.1 == 1 && decide (w.2.2 ≤ ((walking 0 []).cdie 0).clk)) = true
    ∧ (match walkFrom (walking 0 []) 0 4096 with | .error st => st == 1 | .ok _ => false) = true
    ∧ (match walkFrom (walking 0x10001 tables) 0 4096 with | .ok p => decide (p.base = 0x1000 ∧ p.size = 12) | .error _ => false) = true := by decide +kernel
/-- An image with one patch point, of four bytes at 96, and a patch table in that memory. -/
def patchable : Mem := [(28, 4, 256), (32, 2, 1), (256, 4, 96), (260, 1, 4)].foldl (fun (m : Mem) e => Mem.writeNum m e.1 e.2.1 e.2.2) []
theorem witness_Patches : Image.patchcount patchable = 1 ∧ Image.patch patchable 0 = (96, 4) ∧ 7 < 2 ^ (8 * 4) ∧ (patchTable (walking 0x10001 tables) 0 0x1000 []).isSome = true
    ∧ patchTable (walking 0 []) 0 0x1000 [] = none := by decide +kernel
/-- A line of code on its way, one that an icinv has overtaken, and a dirty line of the die cache. -/
def filling (discard : Bool) : State := (mapped (opOf .cpyLd) 3 0x1005).updGrid 0 fun g => { g with fills := [{ fn := 0, line := 64, due := 0, discard := discard }] }
def dirtyLine : DLine := { fn := 0, va := 0x1000, kind := 0, target := 0x1000, bytes := List.replicate 64 7, valid := 0xFF, dirty := 0xF }
def cached : State := row.updCdie 0 fun d => { d with dcache := [(dkey 0 0x1000, dirtyLine)] }
/-- A dirty line at an interleaved PA, while the interleave table is rewritten. -/
def heldLine : State := { row.updCdie 0 fun d => { d with dcache := [(dkey 0 0x1000, { dirtyLine with target := 2 ^ 44 })] } with itbusy := true }
/-- The row is in a bank operation that is over; a line of side memory and one of grid 5, where nothing is, have failed. -/
def bankDone : State := rowX fun x => { x with bankOps := [(3, 1, 0, 2)] }
def failedLine : State := row.updGrid 0 fun g => { g with badLines := [(0, 0)] }
def failedIdle : State := idling { badLines := [(0, 0)] }
theorem witness_FillsAndErrors : ([true, false].all fun d => ((filling d).grid 0).fills.find? (fun e => e.fn == 0 && e.line == 64 && decide (e.due ≤ ((filling d).grid 0).clk)) == some { fn := 0, line := 64, due := 0, discard := d }) = true
    ∧ (filling false).memBad 0 = false ∧ ((List.range 64).all fun i => !cached.heldPa (0x1000 + i) && heldLine.heldPa (2 ^ 44 + i)) = true
    ∧ cached.dline? 0 (dkey 0 0x1000) = some dirtyLine ∧ dirtyLine.bytes.length = 64 ∧ ((List.range 64).all fun i => decide (cached.homeOf (0x1000 + i) = some (0x1000 + i)) && !cached.memBad (0x1000 + i)) = true
    ∧ (let s : State := { cached with badPages := [1] }
       decide (s.dline? 0 (dkey 0 0x1000) = some dirtyLine) && (List.range 64).all fun i => decide (s.homeOf (0x1000 + i) = some (0x1000 + i)) && s.memBad (0x1000 + i) && !s.heldPa (0x1000 + i)) = true
    ∧ (bankDone.ctxs.find? fun e => gridOf e.1 == 0 && e.2.bankOps.any fun o => o.1 == 3 && decide (o.2.2.1 ≤ 0)).map (·.1) = some 0
    ∧ row.errorAt (.load 0 0 0) = false ∧ row.errorAt (.vreg 0 63) = true ∧ row.errorAt (.acc 0 15) = true ∧ (landing { id := 0, due := 4, writes := [.s 9 1], loadAddr := some 64 }).errorAt (.load 0 0 0) = true
    ∧ (uncached .cpyLd 0).errorAt (.beat 0 7 0) = true ∧ (walking 0 []).errorAt (.walk 0 0 1 0) = true ∧ (filling false).errorAt (.fetch 0 0 64) = true
    ∧ (0, 0) ∈ (failedLine.grid 0).badLines ∧ ((failedLine.block? 0).map fun b => b.spans) = some [⟨0, 0, 0x200000⟩] ∧ (0, 0) ∈ failedIdle.badLinesOf 5 ∧ failedIdle.blocks = []
    ∧ (0, 0) ∈ failedLine.badLinesOf 0 ∧ (walkReads (walking 0x10001 tables) 0 4096)[3]? = some 0x40008 := by decide +kernel
end Sys2Proof.Tests
end

section
/-! The numbers of chapter 6: integers wrapped to w bits and read again (R127), division (R129), the tapered codes (R133 to R135). -/
namespace Sys2Proof.Machine
open Sys2Proof.Claims

/-! ### Integers on w bits -/
theorem ofNat_wrap (w : Nat) (r : Int) : BitVec.ofNat w (wrap w r) = BitVec.ofInt w r := by
  have hpos : (0 : Int) < (2 ^ w : Nat) := by exact_mod_cast Nat.two_pow_pos w
  have hlt := Int.emod_lt_of_pos r hpos
  apply BitVec.eq_of_toNat_eq
  rw [BitVec.toNat_ofNat, BitVec.toNat_ofInt, wrap, Nat.mod_eq_of_lt (by omega)]
/-- The model's signed reading of a number is that of its low n bits. -/
theorem signed_eq_toInt (n x : Nat) : signed n x = (BitVec.ofNat n x).toInt := by
  rw [BitVec.toInt_eq_toNat_cond, BitVec.toNat_ofNat]; rfl
theorem sext64_wrap (w : Nat) (r : Int) : sext64 w (wrap w r) = (BitVec.ofInt w r).signExtend 64 := by
  rw [sext64, word64, ofNat_wrap, signed_eq_toInt, ofNat_wrap]; rfl
theorem zext64_wrap (w : Nat) (r : Int) : zext64 w (wrap w r) = (BitVec.ofInt w r).setWidth 64 := by
  rw [zext64, ← BitVec.toNat_ofNat, ofNat_wrap, BitVec.ofNat_toNat]
/-- Ext of R153 on a wrapped result. -/
theorem extTy_wrap (t : Ty) (r : Int) : extTy t (wrap (tyWidth t) r) = extend t (BitVec.ofInt (tyWidth t) r) := by
  unfold extTy extend
  split
  · exact sext64_wrap _ r
  · exact zext64_wrap _ r
/-- The model reads an operand as the number of R127. -/
theorem readAs_toNat (t : Ty) (a : Word64) : readAs t a.toNat = num t a := by
  unfold readAs num
  split
  · rw [signed_eq_toInt, BitVec.ofNat_toNat]
  · rw [BitVec.toNat_setWidth]
/-- Wrapping the number of an operand gives its low bits back. -/
theorem ofInt_num (t : Ty) (a : Word64) : BitVec.ofInt (tyWidth t) (num t a) = a.setWidth (tyWidth t) := by
  unfold num
  split
  · exact BitVec.ofInt_toInt
  · rw [BitVec.ofInt_natCast, BitVec.ofNat_toNat, BitVec.setWidth_eq]
theorem ofInt_negOne (w : Nat) : BitVec.ofInt w (-1) = BitVec.allOnes w := by
  rw [BitVec.ofInt_neg, ← BitVec.neg_one_eq_allOnes]; rfl
theorem ofInt_two_pow_sub_one (w : Nat) : BitVec.ofInt w ((2 ^ w : Nat) - 1) = BitVec.allOnes w := by
  have h : ((2 ^ w : Nat) : Int) - 1 = (2 ^ w - 1 : Nat) := by have := Nat.two_pow_pos w; omega
  apply BitVec.eq_of_toNat_eq
  rw [h, BitVec.ofInt_natCast, BitVec.toNat_ofNat, BitVec.toNat_allOnes, Nat.mod_eq_of_lt (Nat.sub_one_lt (Nat.ne_of_gt (Nat.two_pow_pos w)))]

/-! ### Division (R129) -/
theorem ofInt_divT (t : Ty) (a b : Word64) : BitVec.ofInt (tyWidth t) (divT t (num t a) (num t b)) = divBits 0x14 t a b := by
  unfold divT divBits
  split
  · split
    · exact ofInt_negOne _
    · exact ofInt_two_pow_sub_one _
  · rfl
theorem ofInt_remT (t : Ty) (a b : Word64) : BitVec.ofInt (tyWidth t) (remT t (num t a) (num t b)) = divBits 0x15 t a b := by
  unfold remT divBits
  split
  · exact ofInt_num t a
  · rfl
/-- Without saturation, the results of sdiv and srem are the quotient and the remainder of R129. -/
theorem aluResult_divide {op : Nat} (hop : op = 0x14 ∨ op = 0x15) (t : Ty) (a b : Word64) :
    aluResult op t false a b = extend t (divBits op t a b) := by
  rcases hop with rfl | rfl
  · simp only [aluResult, aluExact, readAs_toNat, Bool.false_eq_true, if_false, extTy_wrap, ofInt_divT]
  · simp only [aluResult, aluExact, readAs_toNat, Bool.false_eq_true, if_false, extTy_wrap, ofInt_remT]

/-! ### What issue makes of an effect that takes place -/
theorem Ready.ctx?_eq {s : State} {cid op : Nat} {f : Fields} {i : Instr} (h : Ready s cid op f i) : s.ctx? cid = some (s.ctx cid) := by
  obtain ⟨x, hx⟩ := Option.isSome_iff_exists.mp h.present
  rw [State.ctx, hx, Option.getD_some]
theorem sameMem_of_core {s t : State} (h : t.core = s.core) : SameMem s t := by
  simp only [State.core, Core.mk.injEq] at h
  obtain ⟨home, side, scratch, slotMem, bankMem, _⟩ := h
  exact ⟨fun _ => by rw [home], fun _ => by rw [side], fun _ => by rw [scratch], fun _ => by rw [slotMem], fun _ => by rw [bankMem]⟩
/-- A ready instruction whose meaning is done in t answers t, issued: the context is as t has it and goes on at the next instruction. -/
theorem makes_of_done {i : Instr} {op : Nat} {f : Fields} {body : Nat → Fields → State → Res} {s t : State} {cid : Nat} {y : Ctx}
    (hi : Machine.exec i s = issue i op f body s) (h : Ready s cid op f i) (hb : body cid f s = .done t) (hy : t.ctx? cid = some y)
    (hnow : t.now cid = s.now cid) (hfile : ∀ c, c ≠ cid → t.fileOf c = s.fileOf c) (hcore : t.core = s.core) :
    Makes i s cid y (s.nextPc cid i) := by
  refine ⟨_, hi.trans (issue_done h hb), ?_, fun c hc => ?_, sameMem_of_core ?_⟩
  · rw [State.ctx?_issued, hy, hnow, Option.map_some]
  · rw [State.fileOf_issued_ne t s op f _ hc, hfile c hc]
  · rw [State.core_issued, hcore]

/-! ### A scalar result in flight -/
/-- What a scalar result writes when it lands: nothing under nowb (R80). -/
def scalarWrites (f : Fields) (val : Word64) : List RegWrite := match f.d with | .s n => if f.nowb then [] else [.s n.val val] | _ => []
theorem State.launchS_eq (s : State) (cid : Nat) (f : Fields) (lat : Nat) (val : Word64) :
    s.launchS cid f lat val = s.launch cid lat (scalarWrites f val) := by
  unfold State.launchS scalarWrites
  cases f.d <;> rfl
@[simp] theorem State.now_launch (s : State) (cid lat : Nat) (writes : List RegWrite) (flags : BitVec 5) (buckets : Nat) (queued canFlag : Bool) (k : Nat) :
    (s.launch cid lat writes flags buckets queued canFlag).now k = s.now k := State.now_updCtx s cid _ k
theorem State.ctx?_launch (s : State) (cid lat : Nat) (writes : List RegWrite) (flags : BitVec 5) (buckets : Nat) (queued canFlag : Bool) :
    (s.launch cid lat writes flags buckets queued canFlag).ctx? cid = (s.ctx? cid).map fun x => { x with
      inflight := x.inflight ++ [{ id := x.nextId, due := s.now cid + lat, writes := writes, flags := flags, buckets := buckets
                                   queued := queued, canFlag := canFlag }]
      nextId := x.nextId + 1 } := State.ctx?_updCtx_self s cid _

/-! ### sdiv and srem -/
/-- A legal encoding sets only the fn bits that its entry defines (R79). -/
theorem fn_and_fnMask_of_legal {op : Nat} {f : Fields} {e : Desc} (he : desc op = some e) (h : legal op f = true) :
    f.fn.toNat &&& e.fnMask = f.fn.toNat := by
  simp only [legal, he, Bool.and_eq_true] at h
  obtain ⟨⟨⟨⟨⟨⟨⟨_, hfn⟩, _⟩, _⟩, _⟩, _⟩, _⟩, _⟩ := h
  exact beq_iff_eq.mp hfn
/-- sdiv and srem define no fn bit, so no legal one saturates. -/
theorem fn_eq_zero_of_legal_divide {op : Nat} {f : Fields} (hop : op = 0x14 ∨ op = 0x15) (h : legal op f = true) : f.fn = 0 := by
  have he : desc op = some (scalarDesc (.ssrc true) (.ssrc true) .unused ints) := by rcases hop with rfl | rfl <;> rfl
  have hfn := fn_and_fnMask_of_legal he h
  exact BitVec.eq_of_toNat_eq (hfn.symm.trans (Nat.and_zero _))
/-- The meaning of sdiv and srem: the result of R129 goes in flight for 18 cycles (R151). -/
theorem scalarBody_divide {op : Nat} {f : Fields} (hop : op = 0x14 ∨ op = 0x15) (hfn : f.fn = 0) (cid : Nat) (s : State) :
    scalarBody op cid f s = .done (s.launch cid 18 (scalarWrites f
      (extend f.mod (divBits op f.mod (arg (s.ctx cid) f f.a) (arg (s.ctx cid) f f.b))))) := by
  have hval : scalarResult op f (s.ctx cid) = extend f.mod (divBits op f.mod (arg (s.ctx cid) f f.a) (arg (s.ctx cid) f f.b)) := by
    have hsat : f.fn.getLsbD 2 = false := by rw [hfn]; rfl
    rw [← aluResult_divide hop, ← hsat]
    rcases hop with rfl | rfl <;> rfl
  rw [scalarBody, if_pos hop, hval, State.launchS_eq]
/-- A ready sdiv or srem puts the result of R129 in flight. -/
theorem divide_makes {i : Instr} {op : Nat} {f : Fields} {s : State} {cid : Nat} (hop : op = 0x14 ∨ op = 0x15) (hl : i.long? = some (op, f))
    (hi : Machine.exec i s = issue i op f (scalarBody op) s) (h : Ready s cid op f i) :
    Makes i s cid { s.ctx cid with
        inflight := (s.ctx cid).inflight ++ [{ id := (s.ctx cid).nextId, due := s.now cid + 18
                                               writes := scalarWrites f (extend f.mod (divBits op f.mod (arg (s.ctx cid) f f.a) (arg (s.ctx cid) f f.b))) }]
        nextId := (s.ctx cid).nextId + 1 } (s.nextPc cid i) := by
  have hlegal : legal op f = true := by simpa only [Instr.wf, hl] using h.legal
  refine makes_of_done hi h (scalarBody_divide hop (fn_eq_zero_of_legal_divide hop hlegal) cid s) ?_ ?_ ?_ ?_
  · rw [State.ctx?_launch, h.ctx?_eq]; rfl
  · exact State.now_launch ..
  · exact fun c hc => State.launch_fileOf (c := c) ..
  · exact State.launch_core ..
/-- Settles O3: both instructions are the one body that divides, and no legal encoding of them saturates. -/
theorem scalarDivideResult : Obligations.ScalarDivideResult := by
  intro f s cid e he
  simp only [List.mem_cons, List.not_mem_nil, or_false] at he
  rcases he with rfl | rfl
  · exact fun h => divide_makes (.inl rfl) rfl rfl h
  · exact fun h => divide_makes (.inr rfl) rfl rfl h

/-! ### The tapered codes (R133 to R135) -/
/-- Of the codes of a format one is NaR. -/
theorem tNar_iff {t : Ty} {c : Nat} (h : c < 2 ^ tCodeBits t) : tNar t c = true ↔ c = narCode t := by
  rw [tNar, Nat.mod_eq_of_lt h, beq_iff_eq]
theorem tVal_of_positive {t : Ty} {c : Nat} (h : c < 2 ^ tBits t) : tVal t c = tMag t c := by
  have hc : c < 2 ^ tCodeBits t := by rw [tCodeBits, Nat.pow_succ]; omega
  simp only [tVal, Nat.mod_eq_of_lt hc, Nat.mod_eq_of_lt h, ge_iff_le, if_neg (Nat.not_le.mpr h)]
/-- A negative code is a 1 before its positive code (R133). -/
theorem tVal_negative {t : Ty} {c : Nat} (h : c < 2 ^ tBits t) : tVal t (2 ^ tBits t + c) = -tVal t c := by
  have hc : 2 ^ tBits t + c < 2 ^ tCodeBits t := by rw [tCodeBits, Nat.pow_succ]; omega
  rw [tVal_of_positive h]
  simp only [tVal, Nat.mod_eq_of_lt hc, Nat.add_mod_left, Nat.mod_eq_of_lt h, ge_iff_le, Nat.le_add_right, if_true]
/-- Settles O41: the positive codes by evaluating the two tables, NaR and the negative codes as in every tapered format. -/
theorem t4AndT6Codes : Obligations.T4AndT6Codes := by
  refine ⟨by decide, by decide, fun c hc => tNar_iff hc, fun c _ hc => tVal_negative hc⟩

end Sys2Proof.Machine
end
